-- ==== Sys2Proof/Word.lean ====
section
/-! DEFINITION. The words and index ranges of the Ulzek 7424: link words, rack time, and the numberings of the
introduction's table (slots, trays, plans, classes, lots, zones). -/

namespace Sys2Proof

/-- A word on a rack link, 32 bits (chapter 11). -/
abbrev Word := BitVec 32

abbrev Byte := BitVec 8

/-- Rack time: milliseconds since power-on, modulo 2^32 (R1). -/
abbrev RackTime := BitVec 32

/-- Slot number, 0 to 23. -/
abbrev SlotId := Fin 24

/-- Tray number: slots 0 to 7, 8 to 15 and 16 to 23. -/
abbrev TrayId := Fin 3

/-- Plan number, 0 to 7. -/
abbrev PlanId := Fin 8

/-- Drive class, 0 to 7. -/
abbrev ClassId := Fin 8

/-- Lot number, 0 to 7. -/
abbrev LotId := Fin 8

/-- A string of `n` characters, one byte each (introduction, "Serials"). -/
abbrev Chars (n : Nat) := Vector Byte n

/-- All 24 slots in ascending order. -/
def allSlots : List SlotId :=
  [0, 1, 2, 3, 4, 5, 6, 7, 8, 9, 10, 11, 12, 13, 14, 15, 16, 17, 18, 19, 20, 21, 22, 23]

end Sys2Proof
end

