-- ==== Sys2Proof/Syntax.lean ====
section
/-! DEFINITION. The commands of the block, one constructor of `Instr` for each row of spec/opcode_table.json: the 24
requests of the two masters, then the 27 events of the links, the slot signals, the drive lanes and the timers. -/

namespace Sys2Proof

/-- The two rack links: `a` to the test station, `b` to the line controller. -/
inductive Port
  | a
  | b
deriving DecidableEq, Repr, Inhabited

/-- Reading of a slot's presence input, and value of the debounced presence field (R4, R8). -/
inductive Presence
  | absent
  | present
deriving DecidableEq, Repr, Inhabited

/-- Status of a drive completion (R52). -/
inductive CompletionStatus
  | good
  | media
  | fault
  | aborted
deriving DecidableEq, Repr, Inhabited

/-- A drive's identity: serial, model, firmware and capacity in sectors (R4, R52). -/
structure Identity where
  serial   : Chars 20
  model    : Chars 40
  firmware : Chars 8
  capacity : BitVec 48
deriving DecidableEq, Repr

/-- A completion as the drive returns it on its lane (R52). A field that the operation's kind does not return is
not looked at by the part. `temperature` is the drive's own figure, before the DPE clamps it. -/
structure Completion where
  tag         : Byte
  status      : CompletionStatus
  sectorsDone : BitVec 48
  hardErrors  : Word
  softErrors  : Word
  seeksDone   : Word
  seekErrors  : BitVec 16
  duration    : Word
  temperature : Int
  faultCodes  : List Byte
  identity    : Identity
deriving DecidableEq, Repr

/-- The three words of one step entry as LOAD_PLAN carries it (R193). -/
structure StepWords where
  w0 : Word
  w1 : Word
  w2 : Word
deriving DecidableEq, Repr, Inhabited

/-- The commands, one constructor per row of the opcode table.

A REQUEST row (`read` to `releaseLot`) is a good request packet of that kind arriving at link port `port` with request
tag `tag`; its other operands are the words of the request body, in the order of R192's table. An EVENT row is the
event its rule names, on the slot or the port given. -/
inductive Instr
  /-- READ (R183). -/
  | read (port : Port) (tag collection index count : Word)
  /-- SET_MASK (R172). -/
  | setMask (port : Port) (tag mask : Word)
  /-- RACK_RESET (R187). -/
  | rackReset (port : Port) (tag : Word)
  /-- LOAD_PLAN (R71). -/
  | loadPlan (port : Port) (tag plan : Word) (entries : List StepWords)
  /-- START (R75). -/
  | start (port : Port) (tag plan : Word) (slots : List Word)
  /-- HOLD (R91). -/
  | hold (port : Port) (tag slot : Word)
  /-- RESUME (R93). -/
  | resume (port : Port) (tag slot : Word)
  /-- ABORT (R94). -/
  | abort (port : Port) (tag slot : Word)
  /-- RETEST (R76). -/
  | retest (port : Port) (tag slot plan : Word)
  /-- SLOT_RESET (R22). -/
  | slotReset (port : Port) (tag slot : Word)
  /-- DIRECT_OP (R64); start sector and sector count are two words each. -/
  | directOp (port : Port) (tag slot kind startHi startLo countHi countLo : Word)
  /-- SET_TIMING (R67). -/
  | setTiming (port : Port) (tag present period hot poll : Word)
  /-- SET_CLASS (R28): the class number, then the six words of a class entry. -/
  | setClass (port : Port) (tag cls surgeRun seekTrip times capHi capLo rate : Word)
  /-- SET_GRADE_TABLE (R123): the five table words. -/
  | setGradeTable (port : Port) (tag weights limits slowT1 t2t3 t4t5 : Word)
  /-- DECLARE (R11). -/
  | declare (port : Port) (tag slot cls : Word)
  /-- SET_LINE (R29). -/
  | setLine (port : Port) (tag present budget window count declareTime unloadTime : Word)
  /-- OPEN_LOT (R148): the label is four words. -/
  | openLot (port : Port) (tag bin capacity label0 label1 label2 label3 : Word)
  /-- CLOSE_LOT (R149). -/
  | closeLot (port : Port) (tag lot : Word)
  /-- NEXT_PICK (R152). -/
  | nextPick (port : Port) (tag lot : Word)
  /-- CANCEL_PICK (R154). -/
  | cancelPick (port : Port) (tag slot : Word)
  /-- UNLOAD (R156). -/
  | unload (port : Port) (tag slot force : Word)
  /-- WITHDRAW (R159). -/
  | withdraw (port : Port) (tag slot : Word)
  /-- REQUEUE (R161). -/
  | requeue (port : Port) (tag slot : Word)
  /-- RELEASE_LOT (R151). -/
  | releaseLot (port : Port) (tag lot : Word)
  /-- PACKET_RECEIVE (R177): a packet's words in order (header, body, check word) and whether its framing was good. -/
  | packetReceive (port : Port) (framed : Bool) (words : List Word)
  /-- PACKET_SENT (R182). -/
  | packetSent (port : Port)
  /-- LINK_UP (R175). -/
  | linkUp (port : Port)
  /-- LINK_DOWN (R176). -/
  | linkDown (port : Port)
  /-- RESET_INPUT_ASSERT (R187). -/
  | resetInputAssert
  /-- RESET_INPUT_RELEASE (R188). -/
  | resetInputRelease
  /-- POWER_ON_RESET (R189): bit n of `straps` is the strap of slot n, 1 for a fitted slot (R6). -/
  | powerOnReset (straps : BitVec 24)
  /-- PRESENCE_INPUT_CHANGE (R8): the raw presence input of `slot` now reads `level`. -/
  | presenceInputChange (slot : SlotId) (level : Presence)
  /-- INSERTION_RECOGNISED (R9). -/
  | insertionRecognised (slot : SlotId)
  /-- REMOVAL_RECOGNISED (R10). -/
  | removalRecognised (slot : SlotId)
  /-- DECLARE_TIMEOUT (R12). -/
  | declareTimeout (slot : SlotId)
  /-- UNLOAD_OVERDUE (R23). -/
  | unloadOverdue (slot : SlotId)
  /-- CURRENT_CONVERSION (R43): the converted current in lu, before clamping. -/
  | currentConversion (slot : SlotId) (reading : Int)
  /-- SURGE_TIMER_EXPIRY (R40). -/
  | surgeTimerExpiry (slot : SlotId)
  /-- READY_TIMEOUT (R41). -/
  | readyTimeout (slot : SlotId)
  /-- HEAD_WAIT_EXPIRY (R34). -/
  | headWaitExpiry
  /-- WINDOW_ENTRY_AGED (R39). -/
  | windowEntryAged
  /-- DRIVE_READY_REPORT (R49). -/
  | driveReadyReport (slot : SlotId)
  /-- DRIVE_COMPLETION (R52). -/
  | driveCompletion (slot : SlotId) (completion : Completion)
  /-- OPERATION_TIMEOUT (R54). -/
  | operationTimeout (slot : SlotId)
  /-- PORT_LINK_UP (R56). -/
  | portLinkUp (slot : SlotId)
  /-- PORT_RESET_TIMEOUT (R56). -/
  | portResetTimeout (slot : SlotId)
  /-- PATROL_TIMER_EXPIRY (R61). -/
  | patrolTimerExpiry (slot : SlotId)
  /-- SOAK_CREDIT_REACHED (R79). -/
  | soakCreditReached (slot : SlotId)
  /-- OFF_TIME_REACHED (R84). -/
  | offTimeReached (slot : SlotId)
  /-- STALL_TIMER_EXPIRY (R90). -/
  | stallTimerExpiry (slot : SlotId)
  /-- GRADING_COMPLETION (R128). -/
  | gradingCompletion
deriving DecidableEq, Repr

end Sys2Proof
end

