-- ==== Sys2Proof/Decode.lean ====
section
/-! DEFINITION. The command a table word spells. No row of spec/opcode_table.json gives bits (every row's "fields" list is
empty and none has a "fixed" pattern), so no word spells a command. The packets of the rack links, which do have a
layout, are read in Machine/Operands.lean. -/

namespace Sys2Proof

/-- The command spelled by the `nbits` low bits of `w`: none, since the table gives no row any bits (log entry 31). -/
def decodeTableWord (_nbits _w : Nat) : Option Instr := none

end Sys2Proof
end

