-- ==== Sys2Proof/Machine/Types.lean ====
section
/-! DEFINITION. The records and named values that the manual gives the ten blocks: slot records, plans, run contexts,
drive-port engines, test records, the grade table, lots, causes and packets. -/

namespace Sys2Proof.Machine

/-- The 13 slot states (section 1.2). -/
inductive SlotState
  | disabled
  | empty
  | loaded
  | spinWait
  | spinning
  | identifying
  | ready
  | running
  | held
  | poweringDown
  | grading
  | done
  | unloading
deriving DecidableEq, Repr, Inhabited

/-- Purpose of a power-down (R4, R19). -/
inductive Purpose
  | grade
  | abort
  | unload
deriving DecidableEq, Repr, Inhabited

/-- Custody of a slot, derived from state and purpose (R5). -/
inductive Custody
  | none
  | test
  | line
deriving DecidableEq, Repr, Inhabited

/-- Load phase of a slot (R31). -/
inductive LoadPhase
  | off
  | surge
  | run
  | seek
deriving DecidableEq, Repr, Inhabited

/-- Hold cause of a HELD slot (R4). -/
inductive HoldCause
  | planHold
  | masterHold
  | thermalStall
  | reset
deriving DecidableEq, Repr, Inhabited

/-- The faults that the PAU and the DPE report (R16). -/
inductive FaultCause
  | overcurrent
  | noReady
  | classMismatch
  | badCapacity
  | duplicateSerial
  | swapped
  | opTimeout
  | driveFault
  | unresponsive
  | portDead
deriving DecidableEq, Repr, Inhabited

/-- The seven bins (introduction). -/
inductive Bin
  | s1
  | s2
  | s3
  | s4
  | s5
  | reject
  | rework
deriving DecidableEq, Repr, Inhabited

/-- Kind of a verdict (R4). -/
inductive VerdictKind
  | graded
  | fault
  | aborted
deriving DecidableEq, Repr, Inhabited

/-- Flags of a GRADED verdict: a set, possibly empty (R4). -/
structure VerdictFlags where
  incomplete : Bool := false
  demoted    : Bool := false
  hardLimit  : Bool := false
  seekLimit  : Bool := false
deriving DecidableEq, Repr, Inhabited

/-- The verdict record (R4, section 1.1). -/
structure Verdict where
  kind       : VerdictKind
  bin        : Bin
  score      : Option Nat := none
  flags      : VerdictFlags := {}
  faultCause : Option FaultCause := none
  revision   : Option (BitVec 16) := none
  plan       : Option PlanId := none
  at_        : RackTime
deriving DecidableEq, Repr

/-- Placement of a slot's drive (R4). -/
inductive Placement
  | none
  | pending
  | lot (n : LotId)
deriving DecidableEq, Repr, Inhabited

/-! ## Drive ports (chapter 3) -/

/-- State of a drive port (R48). -/
inductive PortStatus
  | off
  | starting
  | idle
  | busy
  | resetting
deriving DecidableEq, Repr, Inhabited

/-- Pattern of a seek storm (R51). -/
inductive StormPattern
  | random
  | butterfly
deriving DecidableEq, Repr, Inhabited

/-- The six kinds of drive operation with their arguments (R51). -/
inductive Operation
  | identify
  | readVerify (start count : Nat)
  | writeVerify (start count : Nat) (pattern : Byte)
  | seekStorm (duration : Nat) (pattern : StormPattern)
  | healthPoll
  | standby
deriving DecidableEq, Repr, Inhabited

/-- The kinds that DIRECT_OP accepts (R64). -/
inductive DirectKind
  | identify
  | readVerify
  | healthPoll
deriving DecidableEq, Repr, Inhabited

/-- A direct operation as taken: kind, start and count, and whether R64 clamped the count. -/
structure DirectOp where
  kind    : DirectKind
  start   : Nat
  count   : Nat
  clamped : Bool
deriving DecidableEq, Repr

/-- Who asked for an operation (R48). -/
inductive Requester
  | patrol
  | direct (op : DirectOp)
  | sm
  | sq
deriving DecidableEq, Repr

/-- The operation register's content while an operation is in flight (R48). -/
structure InFlight where
  op        : Operation
  tag       : Byte
  requester : Requester
  issued    : RackTime
  deadline  : RackTime
deriving DecidableEq, Repr

/-- The owner of the slot's own work: the SM or the SQ (section 3.4). -/
inductive Owner
  | sm
  | sq
deriving DecidableEq, Repr, Inhabited

/-- The one operation that the slot's owner has ready and not yet issued, with its timeout in s (R57). -/
structure OwnerOp where
  owner   : Owner
  op      : Operation
  timeout : Nat
deriving DecidableEq, Repr

/-- A Drive Port Engine (R48). -/
structure Engine where
  port        : PortStatus := .off
  ready       : Bool := false
  inFlight    : Option InFlight := none
  tag         : Byte := 0
  pollPending : Bool := false
  direct      : Option DirectOp := none
  ownerOp     : Option OwnerOp := none
  patrolTimer : Option RackTime := none
  misses      : Nat := 0
  resetTimer  : Option RackTime := none
deriving DecidableEq, Repr

/-! ## Plans and run contexts (chapter 4) -/

/-- A temperature band, limits inclusive (R70, R89). -/
structure Band where
  lo : Int
  hi : Int
deriving DecidableEq, Repr, Inhabited

/-- Mode of a SWEEP step (R70). -/
inductive SweepMode
  | readVerify
  | writeVerify
deriving DecidableEq, Repr, Inhabited

/-- Fields of a SWEEP step entry (R70). -/
structure SweepStep where
  mode    : SweepMode
  pattern : Byte
  segment : Nat
  quiet   : Bool
  band    : Option Band
  stall   : Nat
  timeout : Nat
deriving DecidableEq, Repr

/-- A step entry of a plan (R70). Durations, stall limits and timeouts are in s, the segment size in units. -/
inductive StepEntry
  | soak (duration : Nat) (band : Option Band) (stall : Nat)
  | sweep (sweep : SweepStep)
  | seekstorm (duration : Nat) (pattern : StormPattern) (band : Option Band) (stall : Nat)
  | powerCycle (offTime : Nat)
  | notify (code : Byte)
  | hold
  | repeat_ (target count : Nat)
  | end_
deriving DecidableEq, Repr

/-- A plan of the plan store: EMPTY when it holds no entries (R70). -/
structure Plan where
  entries  : List StepEntry := []
  useCount : Nat := 0
deriving DecidableEq, Repr

/-- Phase of the step in progress (R74). -/
inductive StepPhase
  | waitGroup
  | waitLoad
  | issue
  | waitOp
  | waitBand
  | off
  | waitSpinup
  | surge
  | reidentify
deriving DecidableEq, Repr, Inhabited

/-- Band state (R89). -/
inductive BandState
  | in_
  | out
  | none
deriving DecidableEq, Repr, Inhabited

/-- A hold that waits for the operation in flight (R74). -/
inductive HoldPending
  | masterHold
  | thermalStall
deriving DecidableEq, Repr, Inhabited

/-- The run context (R74). Tray claim held and seek load held are read from the tray's holder set and from the load
phase, their one home each (Machine/Flags.lean, log entry 10). `stallTimer` is the deadline of the stall timer (R90). -/
structure RunContext where
  plan        : PlanId
  step        : Nat := 0
  phase       : StepPhase
  stepStart   : RackTime
  credit      : Nat := 0
  band        : BandState := .none
  outSince    : Option RackTime := none
  stallTimer  : Option RackTime := none
  repeats     : Vector Nat 32 := Vector.replicate 32 0
  cursor      : Nat := 0
  retry       : Bool := false
  holdPending : Option HoldPending := none
deriving DecidableEq, Repr

/-! ## Test records (chapter 6) -/

/-- Kind of a step, for the step log (R78). -/
inductive StepKind
  | soak
  | sweep
  | seekstorm
  | powerCycle
  | notify
  | hold
  | repeat_
  | end_
deriving DecidableEq, Repr, Inhabited

/-- Outcome of a step execution (R78). -/
inductive StepOutcome
  | done
  | heldExit
  | aborted
  | fault
deriving DecidableEq, Repr, Inhabited

/-- A step log entry (R78); the credit is in whole seconds. -/
structure LogEntry where
  step    : Nat
  kind    : StepKind
  outcome : StepOutcome
  credit  : Nat
  at_     : RackTime
deriving DecidableEq, Repr

/-- A zone accumulator (R108). -/
structure Zone where
  covered : Nat := 0
  hard    : Nat := 0
  soft    : Nat := 0
  slow    : Nat := 0
  swept   : Bool := false
deriving DecidableEq, Repr, Inhabited

/-- A test record; the defaults are the cleared record (R108). -/
structure TestRecord where
  zones      : Vector Zone 16 := Vector.replicate 16 {}
  seeksDone  : Nat := 0
  seekErrors : Nat := 0
  thermal    : Nat := 0
  log        : List LogEntry := []
  wrapped    : Bool := false
deriving DecidableEq, Repr

/-! ## The slot table (chapter 1) -/

/-- The slot record; the defaults are the cleared record (R4). Custody is derived (R5, log entry 10). -/
structure Record where
  state        : SlotState := .empty
  purpose      : Option Purpose := none
  presence     : Presence := .absent
  cls          : Option ClassId := none
  identity     : Option Identity := none
  phase        : LoadPhase := .off
  current      : Nat := 0
  temperature  : Option Int := none
  run          : Option RunContext := none
  startPlan    : Option PlanId := none
  notifyCode   : Option Byte := none
  holdCause    : Option HoldCause := none
  verdict      : Option Verdict := none
  placement    : Placement := .none
deriving DecidableEq, Repr

/-- What the SM keeps for a slot beside the record: the raw presence input and when it last changed (R8), the declare
and unload timers as deadlines (R12, R23), the plan number carried since END (R88), and the ABORTED verdict already
made while a power-down of purpose ABORT runs (R19, log entry 12). -/
structure SlotTimers where
  raw            : Presence := .absent
  rawSince       : RackTime := 0
  declareTimer   : Option RackTime := none
  unloadTimer    : Option RackTime := none
  carriedPlan    : Option PlanId := none
  carriedVerdict : Option Verdict := none
deriving DecidableEq, Repr

/-- What the PAU keeps for a slot beside the record: surge and ready timers as deadlines (R40, R41). -/
structure PowerTimers where
  surgeTimer : Option RackTime := none
  readyTimer : Option RackTime := none
deriving DecidableEq, Repr

/-- Everything the part holds for one slot. -/
structure Slot where
  record : Record := {}
  sm     : SlotTimers := {}
  pau    : PowerTimers := {}
  dpe    : Engine := {}
  test   : TestRecord := {}
deriving DecidableEq, Repr

/-- What a slot's three-colour indicator shows (R24). -/
inductive Indicator
  | off
  | greenFlashing
  | greenSteady
  | blueFlashing
  | amberSteady
  | whiteSteady
deriving DecidableEq, Repr, Inhabited

/-- The elements of a three-colour indicator (signal summary). -/
structure Lamp where
  red   : Bool := false
  green : Bool := false
  blue  : Bool := false
deriving DecidableEq, Repr

/-! ## The PAU (chapter 2) -/

/-- A class table entry; the defaults are the power-on values (R27). Currents in lu, times in s. -/
structure ClassEntry where
  isurge   : Nat := 300
  irun     : Nat := 100
  iseek    : Nat := 150
  trip     : Nat := 400
  ts       : Nat := 15
  tr       : Nat := 30
  capacity : Nat := 0
  minRate  : Nat := 0
deriving DecidableEq, Repr, Inhabited

/-- The line settings; the defaults are the power-on values (R29). -/
structure LineSettings where
  budget      : Nat := 0
  window      : Nat := 10
  windowCount : Nat := 4
  declareTime : Nat := 30
  unloadTime  : Nat := 120
deriving DecidableEq, Repr

/-- Patrol and port settings; the defaults are the power-on values (R67). -/
structure TimingSettings where
  period : Nat := 30
  hot    : Int := 55
  poll   : Nat := 5
deriving DecidableEq, Repr

/-- Kind of an admission queue entry (R32). -/
inductive AdmissionKind
  | spinup
  | seek
deriving DecidableEq, Repr, Inhabited

/-- An entry of the admission queue (R32). -/
structure AdmissionEntry where
  slot    : SlotId
  kind    : AdmissionKind
  arrival : RackTime
deriving DecidableEq, Repr

/-! ## The VGA (chapter 5) -/

/-- Kind of a tray claim (R96). -/
inductive ClaimKind
  | quiet
  | storm
deriving DecidableEq, Repr, Inhabited

/-- A member of a tray's holder set (R96). -/
structure Holder where
  slot : SlotId
  kind : ClaimKind
deriving DecidableEq, Repr

/-- An entry of a tray's waiting queue (R96). -/
structure TrayEntry where
  slot    : SlotId
  kind    : ClaimKind
  arrival : RackTime
deriving DecidableEq, Repr

/-- A tray: the holder set and the waiting queue, oldest first (R96). The two counts are derived. -/
structure Tray where
  holders : List Holder := []
  queue   : List TrayEntry := []
deriving DecidableEq, Repr

/-! ## The GE (chapter 7) -/

/-- The grade table; the defaults are the UNSET table (R122). `thresholds` holds t1 to tk. -/
structure GradeTable where
  set        : Bool := false
  revision   : BitVec 16 := 0
  wH         : Nat := 0
  wS         : Nat := 0
  wT         : Nat := 0
  hardLimit  : Nat := 0
  slowLimit  : Nat := 0
  seekLimit  : Nat := 0
  binCount   : Nat := 0
  thresholds : List Nat := []
deriving DecidableEq, Repr

/-- An entry of the grading queue (R125). -/
structure GradingEntry where
  slot    : SlotId
  plan    : PlanId
  arrival : RackTime
deriving DecidableEq, Repr

/-- What a BUSY engine holds (R126), with its copy of the test record (R127). -/
structure Grading where
  slot     : SlotId
  plan     : PlanId
  revision : BitVec 16
  taken    : RackTime
  discard  : Bool
  copy     : TestRecord
deriving DecidableEq, Repr

/-! ## The BLU (chapter 8) -/

/-- State of a lot entry (R147). -/
inductive EntryState
  | unpicked
  | picking
  | picked
  | lost
deriving DecidableEq, Repr, Inhabited

/-- A lot entry (R144). -/
structure LotEntry where
  serial : Chars 20
  slot   : SlotId
  kind   : VerdictKind
  score  : Option Nat
  state  : EntryState
deriving DecidableEq, Repr

/-- State of a lot (R147). -/
inductive LotState
  | free
  | open_
  | full
  | closed
  | complete
deriving DecidableEq, Repr, Inhabited

/-- The character code of a space. -/
def space : Byte := 32

/-- A lot record; the defaults are the FREE values (R147). -/
structure Lot where
  state    : LotState := .free
  bin      : Bin := .s1
  capacity : Nat := 0
  label    : Chars 16 := Vector.replicate 16 space
  opened   : RackTime := 0
  entries  : List LotEntry := []
deriving DecidableEq, Repr

/-! ## The AU (chapter 9) -/

/-- The eight slot cause kinds (R164). -/
inductive SlotCause
  | fault
  | removed
  | mispick
  | held
  | verdict
  | notify
  | present
  | unloadOverdue
deriving DecidableEq, Repr, Inhabited

/-- The rack cause instances (R164): LOT_FULL and LOT_COMPLETE one per lot; LINK_ERROR is that of the master's port. -/
inductive RackCause
  | overBudget
  | admissionStalled
  | lotFull (n : LotId)
  | lotComplete (n : LotId)
  | tableUnset
  | linkError
deriving DecidableEq, Repr, Inhabited

/-- A recorded cause with what it names: the slot, or the rack cause instance (R170). -/
inductive Cause
  | slot (c : SlotCause) (i : SlotId)
  | rack (c : RackCause)
deriving DecidableEq, Repr

/-- Notice state (R170). -/
inductive NoticeState
  | clear
  | sent
deriving DecidableEq, Repr, Inhabited

/-- What the AU holds for one master (R165, R170, R172). A cause set is a list without repeats (log entry 27). `first` is the first
cause recorded in the event in progress, absent between events. -/
structure Attention where
  slotSets : Vector (List SlotCause) 24 := Vector.replicate 24 []
  rackSet  : List RackCause := []
  mask     : BitVec 13
  notice   : NoticeState := .clear
  first    : Option Cause := none
deriving DecidableEq, Repr

/-! ## The LI (chapter 10) -/

/-- Link state of a port (R175). -/
inductive LinkState
  | down
  | up
deriving DecidableEq, Repr, Inhabited

/-- Origin of a reset (R186). -/
inductive Origin
  | portA
  | portB
  | resetInput
  | powerOn
deriving DecidableEq, Repr, Inhabited

/-- The 13 reply statuses (R181). -/
inductive Status
  | ok
  | clamped
  | timeout
  | malformed
  | notThisPort
  | noSuch
  | wrongState
  | busy
  | inUse
  | inLot
  | noRoom
  | badPlan
  | badTable
deriving DecidableEq, Repr, Inhabited

/-- The 24 request kinds, in the order of their codes from 1 (R190). -/
inductive ReqKind
  | read
  | setMask
  | rackReset
  | loadPlan
  | start
  | hold
  | resume
  | abort
  | retest
  | slotReset
  | directOp
  | setTiming
  | setClass
  | setGradeTable
  | declare
  | setLine
  | openLot
  | closeLot
  | nextPick
  | cancelPick
  | unload
  | withdraw
  | requeue
  | releaseLot
deriving DecidableEq, Repr, Inhabited

/-- A packet as it waits in a request FIFO: its header fields and its body (R190). -/
structure Packet where
  ptype : BitVec 4
  kind  : Byte
  len   : BitVec 9
  tag   : Word
  body  : List Word
deriving DecidableEq, Repr

/-- A reply (R180). `direct` tells the reply to an accepted DIRECT_OP, which R179 does not count. -/
structure Reply where
  tag          : Word
  kind         : Byte
  status       : Status
  done         : Bool
  addressValid : Bool
  body         : List Word
  direct       : Bool := false
deriving DecidableEq, Repr

/-- A notice (R194); `at_` is the rack time of its header. -/
inductive Notice
  | attention (at_ : RackTime) (cause : Cause)
  | resetDone (at_ : RackTime) (origin : Origin)
deriving DecidableEq, Repr

/-- A packet on an outgoing path (R182). -/
inductive OutPacket
  | reply (r : Reply)
  | notice (n : Notice)
deriving DecidableEq, Repr

/-- What the LI holds for one port: link state, request FIFO and outgoing path, oldest first (R175, R177, R182), the
notices held while the reset input is low (R188), and whether the POWER_ON RESET_DONE is still held (R189). -/
structure LinkPort where
  link        : LinkState := .down
  fifo        : List Packet := []
  out         : List OutPacket := []
  held        : List Notice := []
  powerOnHeld : Bool := true
deriving DecidableEq, Repr

/-- The outstanding-reply record of an accepted DIRECT_OP (R182). -/
structure Outstanding where
  tag  : Word
  slot : SlotId
  mark : Bool
deriving DecidableEq, Repr

end Sys2Proof.Machine
end

