-- ==== Sys2Proof/Config.lean ====
section
/-! DEFINITION. The constants of the part that no request sets, and the values the manual leaves open. -/

namespace Sys2Proof.Config

/-- R8: steady PRESENT before an insertion is recognised, in ms. -/
def insertionDebounce : Nat := 500

/-- R8: steady ABSENT before a removal is recognised, in ms. -/
def removalDebounce : Nat := 100

/-- R34: the head-wait timer, in s. -/
def headWait : Nat := 60

/-- R56: the port reset timer, in s. -/
def resetTime : Nat := 5

/-- R51: timeouts in s of IDENTIFY, of a direct READ_VERIFY, of STANDBY, and what SEEK_STORM adds to its duration. -/
def identifyTimeout : Nat := 10
def directReadTimeout : Nat := 60
def standbyTimeout : Nat := 15
def stormMargin : Nat := 30

/-- R82: the longest storm, in s. -/
def stormMax : Nat := 60

/-- R63: consecutive misses that make a drive UNRESPONSIVE. -/
def missLimit : Nat := 3

/-- R64: the largest sector count of a direct READ_VERIFY (4,096 units). -/
def directMax : Nat := 268435456

/-- Introduction: sectors in a unit. -/
def unitSectors : Nat := 65536

/-- R58: the smallest capacity accepted, in sectors. -/
def minCapacity : Nat := 1048576

/-- R119: the most entries a step log holds. -/
def logDepth : Nat := 64

/-- R177: the packets a request FIFO holds. -/
def fifoDepth : Nat := 8

/-- R179: the unsent replies that pause dispatch on a port. -/
def replyLimit : Nat := 8

/-- R186: the part revision of this manual's parts. -/
def partRevision : Word := 2

/-- The step phase that the run context of a slot held at a HOLD step shows. R74 and R86 give such a step no phase:
a FREE VALUE, applied to the count of the times it was taken (log entry 1). -/
opaque holdStepPhase : Nat → Machine.StepPhase

/-- The class entry by which a slot whose class field is absent is powered, timed, checked and accounted. A slot that was
unloaded from LOADED, returned to DONE by CANCEL_PICK and then retested spins up without a class, and no rule says with
which values: a FREE VALUE for each slot (log entry 4). -/
opaque undeclaredClass : SlotId → Machine.ClassEntry

/-- The port whose packet the LI takes next when packets of both ports can be taken in one event, at the release of the
reset input. No rule orders the ports: a FREE VALUE, applied to the count of the times it was taken (log entry 8). -/
opaque nextPort : Nat → Port

end Sys2Proof.Config
end

