-- ==== Sys2Proof/Machine/State.lean ====
section
/-! DEFINITION. The state of the part, block by block, the reasons a step can stop, and the state after power-on reset. -/

namespace Sys2Proof.Machine

/-- Reasons a command stops the part with a fault. There is none: the manual gives every command an effect, and what a
drive or a master does wrong is answered by a verdict, a refusal reply or a cause, never by a stop. Nothing raises a
value of this type, so nothing about it is unsafe (log entry 34). -/
inductive Fault
deriving DecidableEq, Repr

/-- Reasons a command has no meaning. -/
inductive Refusal
  /-- Raised by no command of this model: every row of the table has its meaning. Safe. -/
  | notModelled (mnemonic : String)
deriving DecidableEq, Repr

/-- Everything the manual gives the part, and the queue of commands that wait. -/
structure State where
  /-- Rack time (R1). -/
  now : RackTime
  /-- The slot table, with every block's per-slot state (R4, R48, R108). -/
  slots : Vector Slot 24
  /-- The drive-class table (R27). -/
  classTable : Vector ClassEntry 8
  /-- The line settings (R29). -/
  line : LineSettings
  /-- Patrol and port settings (R67). -/
  timing : TimingSettings
  /-- The committed load L, in lu (R31). -/
  load : Nat
  /-- The admission queue, head first (R32). -/
  admission : List AdmissionEntry
  /-- Rack time at which the present head became the head (R34, R193). -/
  headSince : RackTime
  /-- The head-wait timer's deadline, while it runs (R34). -/
  headWait : Option RackTime
  /-- The window history, oldest first (R38). -/
  window : List RackTime
  /-- The plan store (R70). -/
  plans : Vector Plan 8
  /-- The three trays (R96). -/
  trays : Vector Tray 3
  /-- The grade table (R122). -/
  grade : GradeTable
  /-- The grading queue, head first (R125). -/
  gradingQueue : List GradingEntry
  /-- The engine: absent when IDLE (R126). -/
  engine : Option Grading
  /-- The unset-notice flag (R125). -/
  unsetNotice : Bool
  /-- The seven pending queues, indexed by bin code (R143, R191). -/
  binQueues : Vector (List SlotId) 7
  /-- The eight lot records (R147). -/
  lots : Vector Lot 8
  /-- The opening order (R143). -/
  opening : List LotId
  /-- The AU's state for the test station and for the line controller (R165). -/
  attA : Attention
  attB : Attention
  /-- The LI's state for the two ports (R175). -/
  linkA : LinkPort
  linkB : LinkPort
  /-- The outstanding-reply records (R182). -/
  outstanding : List Outstanding
  /-- Whether the reset input stays low after its rack reset (R187). -/
  resetLow : Bool
  /-- Origin of the last reset (R186). -/
  origin : Origin
  /-- The model's own: how many free values have been taken (log entries 1, 8, 34). -/
  freeCount : Nat
  /-- The model's own: the commands that wait, first in first out (log entries 31, 34). -/
  pending : List Instr
deriving DecidableEq, Repr

/-- The mask of the test station's cause kinds all enabled (R172, R193): FAULT, REMOVED and MISPICK, HELD, VERDICT,
NOTIFY, TABLE_UNSET, LINK_ERROR. -/
def fullMaskA : BitVec 13 := 0b1100000011111#13

/-- The mask of the line controller's cause kinds all enabled: FAULT, REMOVED and MISPICK, VERDICT, PRESENT,
UNLOAD_OVERDUE, OVER_BUDGET, ADMISSION_STALLED, LOT_FULL, LOT_COMPLETE, LINK_ERROR. -/
def fullMaskB : BitVec 13 := 0b1011111101011#13

/-- A slot at power-on reset (R6, R25, R43, R68, R108): cleared, DISABLED where its strap reads low. The raw presence
input is a pin: it keeps its level, and its debounce starts from rack time 0. -/
def Slot.powerOn (fitted : Bool) (raw : Presence) : Slot :=
  { record := { state := if fitted then .empty else .disabled }
    sm := { raw := raw } }

/-- The part at power-on reset (R189): every block at its power-on values, rack time 0. -/
def State.powerOn (straps : BitVec 24) (raw : Vector Presence 24) (pending : List Instr) (freeCount : Nat) : State where
  now := 0
  slots := Vector.ofFn fun i => Slot.powerOn straps[i] raw[i]
  classTable := Vector.replicate 8 {}
  line := {}
  timing := {}
  load := 0
  admission := []
  headSince := 0
  headWait := none
  window := []
  plans := Vector.replicate 8 {}
  trays := Vector.replicate 3 {}
  grade := {}
  gradingQueue := []
  engine := none
  unsetNotice := false
  binQueues := Vector.replicate 7 []
  lots := Vector.replicate 8 {}
  opening := []
  attA := { mask := fullMaskA }
  attB := { mask := fullMaskB }
  linkA := {}
  linkB := {}
  outstanding := []
  resetLow := false
  origin := .powerOn
  freeCount := freeCount
  pending := pending

/-- The part right after power-on reset. The straps and the presence inputs are pins whose levels the manual does not
fix: a rack with every slot fitted and no drive seated (log entry 2). -/
def State.reset : State := State.powerOn (BitVec.allOnes 24) (Vector.replicate 24 .absent) [] 0

end Sys2Proof.Machine
end

