-- ==== Sys2Proof/Machine/Flags.lean ====
section
/-! DEFINITION. The values the manual derives from the state: power, custody, indicators, loads, tray counts, the codes of
named values, cause priorities and masks, and the indications of a reply status. -/

namespace Sys2Proof.Machine

/-! ## Rack time and counters -/

/-- R1: `t` is earlier than or equal to `now`, compared modulo 2^32. -/
def reached (now t : RackTime) : Bool := decide ((now - t).toNat < 2 ^ 31)

/-- R39: the age of `t`, in ms, modulo 2^32. -/
def age (now t : RackTime) : Nat := (now - t).toNat

/-- The rack time `ms` milliseconds after `now`. -/
def afterMs (now : RackTime) (ms : Nat) : RackTime := now + BitVec.ofNat 32 ms

/-- The rack time `sec` seconds after `now`. -/
def afterSec (now : RackTime) (sec : Nat) : RackTime := afterMs now (sec * 1000)

/-- R2: addition that saturates at `cap`. -/
def satAdd (cap a b : Nat) : Nat := min cap (a + b)

/-- R3: `x` clamped to the range `lo` to `hi`. -/
def clampNat (lo hi x : Nat) : Nat := max lo (min hi x)

/-- R3: `x` clamped to the range `lo` to `hi`. -/
def clampInt (lo hi x : Int) : Int := max lo (min hi x)

/-- The range of every reported temperature, −40 °C to +125 °C (introduction, "Temperatures"). -/
def clampTemperature (t : Int) : Int := clampInt (-40) 125 t

/-! ## Codes of named values (R191): the position in the list, counting from 0 -/

def SlotState.code (x : SlotState) : Nat := x.ctorIdx
def Custody.code (x : Custody) : Nat := x.ctorIdx
def LoadPhase.code (x : LoadPhase) : Nat := x.ctorIdx
def Purpose.code (x : Purpose) : Nat := x.ctorIdx
def HoldCause.code (x : HoldCause) : Nat := x.ctorIdx
def FaultCause.code (x : FaultCause) : Nat := x.ctorIdx
def Bin.code (x : Bin) : Nat := x.ctorIdx
def VerdictKind.code (x : VerdictKind) : Nat := x.ctorIdx
def StepPhase.code (x : StepPhase) : Nat := x.ctorIdx
def BandState.code (x : BandState) : Nat := x.ctorIdx
def HoldPending.code (x : HoldPending) : Nat := x.ctorIdx
def StepOutcome.code (x : StepOutcome) : Nat := x.ctorIdx
def AdmissionKind.code (x : AdmissionKind) : Nat := x.ctorIdx
def ClaimKind.code (x : ClaimKind) : Nat := x.ctorIdx
def EntryState.code (x : EntryState) : Nat := x.ctorIdx
def LotState.code (x : LotState) : Nat := x.ctorIdx
def Status.code (x : Status) : Nat := x.ctorIdx
def Origin.code (x : Origin) : Nat := x.ctorIdx

def completionCode : CompletionStatus → Nat
  | .good => 0
  | .media => 1
  | .fault => 2
  | .aborted => 3

def SweepMode.code : SweepMode → Nat
  | .readVerify => 0
  | .writeVerify => 1

def StormPattern.code : StormPattern → Nat
  | .random => 0
  | .butterfly => 1

/-- Step kinds are coded from 1 (R191). -/
def StepKind.code (x : StepKind) : Nat := x.ctorIdx + 1

/-- Operation kinds are coded from 1, in the order of R51's table (R191). -/
def DirectKind.code : DirectKind → Nat
  | .identify => 1
  | .readVerify => 2
  | .healthPoll => 5

/-- Request kinds are coded from 1 (R190). -/
def ReqKind.code (k : ReqKind) : Nat := k.ctorIdx + 1

/-- The request kinds in the order of their codes. -/
def ReqKind.all : List ReqKind :=
  [.read, .setMask, .rackReset, .loadPlan, .start, .hold, .resume, .abort, .retest, .slotReset, .directOp, .setTiming,
    .setClass, .setGradeTable, .declare, .setLine, .openLot, .closeLot, .nextPick, .cancelPick, .unload, .withdraw,
    .requeue, .releaseLot]

/-- The request kind of a header's kind field; none if the code is not one of the 24 (R178). -/
def ReqKind.ofCode (n : Nat) : Option ReqKind := ReqKind.all.find? fun k => k.code == n

/-- The bin of a code, 0 to 6 (R191). -/
def Bin.ofCode : Nat → Option Bin
  | 0 => some .s1
  | 1 => some .s2
  | 2 => some .s3
  | 3 => some .s4
  | 4 => some .s5
  | 5 => some .reject
  | 6 => some .rework
  | _ => none

/-- The place of a bin among the seven pending queues. -/
def Bin.index : Bin → Fin 7
  | .s1 => 0
  | .s2 => 1
  | .s3 => 2
  | .s4 => 3
  | .s5 => 4
  | .reject => 5
  | .rework => 6

/-- An optional small field is coded 0 when absent, its value plus 1 when present (R191). -/
def optCode : Option Nat → Nat
  | none => 0
  | some n => n + 1

/-! ## Slots -/

/-- The power switch is closed in every load phase but OFF (R31). -/
def Record.powered (r : Record) : Bool := r.phase != .off

/-- Custody, derived from state and purpose (R5). -/
def Record.custody (r : Record) : Custody :=
  match r.state with
  | .running | .held | .grading => .test
  | .unloading => .line
  | .poweringDown =>
    match r.purpose with
    | some .unload => .line
    | some _ => .test
    | none => .none
  | _ => .none

/-- The slot indicator (R24). -/
def Record.indicator (r : Record) : Indicator :=
  match r.state with
  | .disabled | .empty => .off
  | .loaded | .spinWait => .greenFlashing
  | .spinning | .identifying | .ready | .running | .held | .poweringDown | .grading => .greenSteady
  | .unloading => .blueFlashing
  | .done =>
    match r.verdict with
    | some v => if v.kind = .fault ∨ v.bin = .reject then .amberSteady else .whiteSteady
    | none => .whiteSteady

/-- The elements an indicator lights at rack time `now`: a flashing one is lit while rack time modulo 1,000 ms is below
500 ms; amber is red and green together, white all three (R24). -/
def Indicator.lamp (x : Indicator) (now : RackTime) : Lamp :=
  let lit := decide (now.toNat % 1000 < 500)
  match x with
  | .off => {}
  | .greenFlashing => { green := lit }
  | .greenSteady => { green := true }
  | .blueFlashing => { blue := lit }
  | .amberSteady => { red := true, green := true }
  | .whiteSteady => { red := true, green := true, blue := true }

/-- The tray of a slot (R96). -/
def trayOf (i : SlotId) : TrayId := ⟨i.val / 8, by omega⟩

/-- The state of slot `i`. -/
def State.slot (s : State) (i : SlotId) : Slot := s.slots[i]

def State.record (s : State) (i : SlotId) : Record := (s.slot i).record

def State.dpe (s : State) (i : SlotId) : Engine := (s.slot i).dpe

/-- The class table entry of the slot's class (R27). For a slot without a class the manual gives no entry: it is free (log
entry 4). -/
def State.classEntry (s : State) (i : SlotId) : ClassEntry :=
  match (s.record i).cls with
  | some c => s.classTable[c]
  | none => Config.undeclaredClass i

/-- The load of a class in a load phase (R31). -/
def ClassEntry.loadIn (e : ClassEntry) : LoadPhase → Nat
  | .off => 0
  | .surge => e.isurge
  | .run => e.irun
  | .seek => e.iseek

/-- The phase load that slot `i` has in load phase `ph` (R31). -/
def State.loadIn (s : State) (i : SlotId) (ph : LoadPhase) : Nat := (s.classEntry i).loadIn ph

/-- The phase load of slot `i` (R31). -/
def State.phaseLoad (s : State) (i : SlotId) : Nat := s.loadIn i (s.record i).phase

/-! ## Trays (R96) -/

def Tray.quietCount (t : Tray) : Nat := (t.holders.filter fun h => h.kind == .quiet).length

def Tray.stormCount (t : Tray) : Nat := (t.holders.filter fun h => h.kind == .storm).length

/-- The claim that slot `i` holds in its tray. -/
def Tray.claimOf (t : Tray) (i : SlotId) : Option ClaimKind := (t.holders.find? fun h => h.slot == i).map Holder.kind

/-- The run context's tray claim held (R74): it follows each grant and release. -/
def State.claimHeld (s : State) (i : SlotId) : Option ClaimKind := s.trays[trayOf i].claimOf i

/-- The run context's seek load held (R74): yes exactly while the load phase is SEEK. -/
def State.seekHeld (s : State) (i : SlotId) : Bool := (s.record i).phase == .seek

/-! ## Plans and steps -/

/-- The step entry that slot `i` is at; none without a run context or beyond the plan's end. -/
def State.stepEntry (s : State) (i : SlotId) : Option StepEntry :=
  match (s.record i).run with
  | some c => s.plans[c.plan].entries[c.step]?
  | none => none

def StepEntry.kind : StepEntry → StepKind
  | .soak .. => .soak
  | .sweep _ => .sweep
  | .seekstorm .. => .seekstorm
  | .powerCycle _ => .powerCycle
  | .notify _ => .notify
  | .hold => .hold
  | .repeat_ .. => .repeat_
  | .end_ => .end_

/-- The band a step names; none for a step without one and for the kinds that have none (R70, R89). -/
def StepEntry.band : StepEntry → Option Band
  | .soak _ b _ => b
  | .sweep w => w.band
  | .seekstorm _ _ b _ => b
  | _ => none

/-- The stall limit of a step in s, 0 meaning none (R70). -/
def StepEntry.stall : StepEntry → Nat
  | .soak _ _ l => l
  | .sweep w => w.stall
  | .seekstorm _ _ _ l => l
  | _ => 0

/-- SOAK, SWEEP, SEEKSTORM and POWER_CYCLE take time; the other kinds begin and end in one event (R77). -/
def StepEntry.timed : StepEntry → Bool
  | .soak .. | .sweep _ | .seekstorm .. | .powerCycle _ => true
  | _ => false

/-- An operation of the SQ is in flight at the slot's port (R91). -/
def State.sqInFlight (s : State) (i : SlotId) : Bool :=
  match (s.dpe i).inFlight with
  | some f => decide (f.requester = .sq)
  | none => false

/-- Credit accrues with rack time: for a SOAK unless the band state is OUT (R79), for a SWEEP while its segment is in
flight (R80), for a SEEKSTORM while its storm is in flight and the band state is not OUT (R83), for a POWER_CYCLE in
OFF (R84); and only while the slot is RUNNING. -/
def State.accrues (s : State) (i : SlotId) : Bool :=
  match (s.record i).state, (s.record i).run, s.stepEntry i with
  | .running, some c, some e =>
    match e with
    | .soak .. => c.band != .out
    | .sweep _ => c.phase == .waitOp
    | .seekstorm .. => c.phase == .waitOp && c.band != .out
    | .powerCycle _ => c.phase == .off
    | _ => false
  | _, _, _ => false

/-! ## Causes and masks (chapter 9) -/

/-- The mask bit of a slot cause kind (R193): REMOVED and MISPICK share one. -/
def SlotCause.maskBit : SlotCause → Nat
  | .fault => 0
  | .removed => 1
  | .mispick => 1
  | .held => 2
  | .verdict => 3
  | .notify => 4
  | .present => 5
  | .unloadOverdue => 6

/-- The mask bit of a rack cause kind (R193). -/
def RackCause.maskBit : RackCause → Nat
  | .overBudget => 7
  | .admissionStalled => 8
  | .lotFull _ => 9
  | .lotComplete _ => 10
  | .tableUnset => 11
  | .linkError => 12

/-- Cause codes 1 to 8 (R191), in the order of priority of R166; REMOVED comes before MISPICK. -/
def SlotCause.code (c : SlotCause) : Nat := c.ctorIdx + 1

/-- The slot causes in the order of their codes. -/
def SlotCause.all : List SlotCause := [.fault, .removed, .mispick, .held, .verdict, .notify, .present, .unloadOverdue]

/-- Cause codes 9 to 14 (R191). -/
def RackCause.code : RackCause → Nat
  | .overBudget => 9
  | .admissionStalled => 10
  | .lotFull _ => 11
  | .lotComplete _ => 12
  | .tableUnset => 13
  | .linkError => 14

def Cause.code : Cause → Nat
  | .slot c _ => c.code
  | .rack c => c.code

/-- What a cause names, for the master of `port` (R194): the slot, the lot, the port, or 0. -/
def Cause.target (port : Port) : Cause → Nat
  | .slot _ i => i.val
  | .rack (.lotFull n) => n.val
  | .rack (.lotComplete n) => n.val
  | .rack .linkError => match port with
    | .a => 0
    | .b => 1
  | .rack _ => 0

/-- The kinds that the master of a port receives (R164), as the mask that enables all of them. -/
def receivedMask : Port → BitVec 13
  | .a => fullMaskA
  | .b => fullMaskB

/-- The summary code of one slot: that of its pending cause of highest priority, 0 for NONE (R166). -/
def summaryCode (set : List SlotCause) : Nat :=
  match SlotCause.all.find? fun c => set.contains c with
  | some c => c.code
  | none => 0

/-- The summary is empty: all 24 codes NONE and no rack cause (R166). -/
def Attention.isEmpty (a : Attention) : Bool := allSlots.all (fun i => a.slotSets[i].isEmpty) && a.rackSet.isEmpty

/-! ## Links -/

/-- The link state of a port. -/
def State.link (s : State) : Port → LinkPort
  | .a => s.linkA
  | .b => s.linkB

def State.att (s : State) : Port → Attention
  | .a => s.attA
  | .b => s.attB

/-- The flow-control stop toward the master: the FIFO holds 8 packets, or the reset input is low (R177, R187). -/
def State.flowStop (s : State) (p : Port) : Bool := decide ((s.link p).fifo.length ≥ Config.fifoDepth) || s.resetLow

/-- A reply that R179 counts: one of a request taken from the port, and not a direct operation's. -/
def OutPacket.counted : OutPacket → Bool
  | .reply r => !r.direct
  | .notice _ => false

/-- Replies of requests taken from the port that wait unsent (R179). -/
def LinkPort.unsent (l : LinkPort) : Nat := (l.out.filter OutPacket.counted).length

/-- The port whose rights a request kind has (R178, introduction): both, A only or B only. -/
def ReqKind.acceptedOn (k : ReqKind) (p : Port) : Bool :=
  match k with
  | .read | .setMask | .rackReset => true
  | .loadPlan | .start | .hold | .resume | .abort | .retest | .slotReset | .directOp | .setTiming | .setClass
  | .setGradeTable => p == .a
  | .declare | .setLine | .openLot | .closeLot | .nextPick | .cancelPick | .unload | .withdraw | .requeue
  | .releaseLot => p == .b

end Sys2Proof.Machine
end

