-- ==== Sys2Proof/Machine/Operands.lean ====
section
/-! DEFINITION. The layouts of chapter 11: bit fields, characters, 48-bit quantities, packets and their check word, and the
words of step entries, class entries, the grade table and completion records, read and written. -/

namespace Sys2Proof.Machine

/-! ## Bit fields -/

/-- Bits `lo + n - 1` to `lo` of a word. -/
def bits (w : Word) (lo n : Nat) : Nat := (w.toNat >>> lo) % 2 ^ n

/-- A word with the low `n` bits of `v` at bit `lo` and zeros elsewhere. -/
def place (v lo n : Nat) : Word := BitVec.ofNat 32 ((v % 2 ^ n) <<< lo)

/-- The word made of disjoint fields. -/
def word (fields : List Word) : Word := fields.foldl (· ||| ·) 0

/-- A flag as a number. -/
def flag (b : Bool) : Nat := if b then 1 else 0

/-- A small argument: the value in bits 7 to 0 of its word (R192, log entry 28). -/
def small (w : Word) : Nat := bits w 0 8

/-- An 8-bit two's complement field (R191). -/
def signed8 (n : Nat) : Int := if n < 128 then (n : Int) else (n : Int) - 256

/-- A temperature as an 8-bit two's complement field (R191). -/
def unsigned8 (t : Int) : Nat := (BitVec.ofInt 8 t).toNat

/-- A 48-bit quantity from its two words; the upper half of the first is ignored (R191). -/
def read48 (hi lo : Word) : Nat := bits hi 0 16 * 2 ^ 32 + lo.toNat

/-- A 48-bit quantity in two words (R191). -/
def words48 (n : Nat) : List Word := [place (n / 2 ^ 32) 0 16, BitVec.ofNat 32 n]

/-- Characters packed four to a word, the first in bits 31 to 24 (R191); also the packing of byte lists. -/
def packBytes : List Byte → List Word
  | a :: b :: c :: d :: rest => (a ++ b ++ c ++ d) :: packBytes rest
  | [] => []
  | [a] => [place a.toNat 24 8]
  | [a, b] => [place a.toNat 24 8 ||| place b.toNat 16 8]
  | [a, b, c] => [place a.toNat 24 8 ||| place b.toNat 16 8 ||| place c.toNat 8 8]

/-- The `k`th character of a word, 0 being bits 31 to 24. -/
def charAt (w : Word) (k : Nat) : Byte := BitVec.ofNat 8 (bits w (24 - 8 * k) 8)

/-- The 16 characters of a label from its four words. -/
def unpackLabel (w0 w1 w2 w3 : Word) : Chars 16 :=
  #v[charAt w0 0, charAt w0 1, charAt w0 2, charAt w0 3, charAt w1 0, charAt w1 1, charAt w1 2, charAt w1 3,
    charAt w2 0, charAt w2 1, charAt w2 2, charAt w2 3, charAt w3 0, charAt w3 1, charAt w3 2, charAt w3 3]

/-- `ws` cut or filled with zeros to exactly `n` words: a fixed-size list within a record (R193). -/
def fitWords (n : Nat) (ws : List Word) : List Word := (ws ++ List.replicate n 0).take n

/-! ## Packets (R190) -/

/-- One bit of the check word's division, generator polynomial 0x04C11DB7. -/
def crcBit (c : Word) : Word := if c.msb then (c <<< 1) ^^^ 0x04C11DB7#32 else c <<< 1

/-- The division over one word, most significant bit first. -/
def crcWord (c w : Word) : Word := (List.range 32).foldl (fun c _ => crcBit c) (c ^^^ w)

/-- The check word over the header and body words: initial value all ones, result complemented. -/
def checkWord (ws : List Word) : Word := ~~~ ws.foldl crcWord 0xFFFFFFFF#32

/-- Header word 0 of a packet. -/
def header (ptype kind status : Nat) (done valid : Bool) (len : Nat) : Word :=
  word [place ptype 28 4, place kind 20 8, place status 16 4, place (flag done) 15 1, place (flag valid) 14 1, place len 0 9]

/-- A whole packet from its two header words and its body. -/
def packetWords (h0 h1 : Word) (body : List Word) : List Word :=
  h0 :: h1 :: body ++ [checkWord (h0 :: h1 :: body)]

/-- The words of a request packet (R190). -/
def requestWords (k : ReqKind) (tag : Word) (body : List Word) : List Word :=
  packetWords (header 1 k.code 0 false false body.length) tag body

/-- The packet that a good request of kind `k` puts into the FIFO. -/
def requestPacket (k : ReqKind) (tag : Word) (body : List Word) : Packet where
  ptype := 1
  kind := BitVec.ofNat 8 k.code
  len := BitVec.ofNat 9 body.length
  tag := tag
  body := body

/-- A received packet with a good check word, its header bits that R190 does not name ignored. A packet too short for a
header and a check word, or with a wrong check word, is none (R177, R190, log entry 6). -/
def readPacket : List Word → Option Packet
  | h0 :: h1 :: rest =>
    match rest.reverse with
    | check :: rev =>
      if check = checkWord (h0 :: h1 :: rev.reverse) then
        some { ptype := BitVec.ofNat 4 (bits h0 28 4), kind := BitVec.ofNat 8 (bits h0 20 8)
               len := BitVec.ofNat 9 (bits h0 0 9), tag := h1, body := rev.reverse }
      else none
    | [] => none
  | _ => none

/-- The words of a reply (R180, R190). -/
def Reply.words (r : Reply) : List Word :=
  packetWords (header 2 r.kind.toNat r.status.code r.done r.addressValid r.body.length) r.tag r.body

/-- The words of a notice sent on `port` (R194). -/
def Notice.words (port : Port) : Notice → List Word
  | .attention t c => packetWords (header 3 1 0 false false 1) t [word [place c.code 24 8, place (c.target port) 0 8]]
  | .resetDone t o => packetWords (header 3 2 0 false false 1) t [place o.code 0 2]

/-- The words the part sends for a packet of `port`'s outgoing path. -/
def OutPacket.words (port : Port) : OutPacket → List Word
  | .reply r => r.words
  | .notice n => n.words port

/-! ## Step entries (R193) -/

def StormPattern.ofCode : Nat → Option StormPattern
  | 0 => some .random
  | 1 => some .butterfly
  | _ => none

def SweepMode.ofCode : Nat → Option SweepMode
  | 0 => some .readVerify
  | 1 => some .writeVerify
  | _ => none

/-- The band of a step entry, as written; its limits are ignored when the band is not present. -/
def stepBand (w : StepWords) : Option Band :=
  if bits w.w0 27 1 = 1 then some { lo := signed8 (bits w.w0 16 8), hi := signed8 (bits w.w0 8 8) } else none

/-- The step entry that three words carry, every value as written; none where a code lies outside its list (R191).
Fields that the kind does not use are ignored. -/
def readStep (w : StepWords) : Option StepEntry :=
  let low := bits w.w0 0 8
  let stall := bits w.w2 12 20
  match bits w.w0 28 4 with
  | 1 => some (.soak w.w1.toNat (stepBand w) stall)
  | 2 => (SweepMode.ofCode (bits w.w0 24 2)).map fun m =>
      .sweep { mode := m, pattern := BitVec.ofNat 8 low, segment := w.w1.toNat, quiet := bits w.w0 26 1 == 1,
               band := stepBand w, stall := stall, timeout := bits w.w2 0 12 }
  | 3 => (StormPattern.ofCode (bits w.w0 24 2)).map fun p => .seekstorm w.w1.toNat p (stepBand w) stall
  | 4 => some (.powerCycle w.w1.toNat)
  | 5 => some (.notify (BitVec.ofNat 8 low))
  | 6 => some .hold
  | 7 => some (.repeat_ w.w1.toNat low)
  | 8 => some .end_
  | _ => none

/-- Word 0 fields of a band. -/
def bandFields : Option Band → List Word
  | some b => [place 1 27 1, place (unsigned8 b.lo) 16 8, place (unsigned8 b.hi) 8 8]
  | none => []

/-- The three words of a step entry; a field that the kind does not use reads 0. -/
def StepEntry.words (e : StepEntry) : StepWords :=
  match e with
  | .soak d b l =>
    { w0 := word (place 1 28 4 :: bandFields b), w1 := BitVec.ofNat 32 d, w2 := place l 12 20 }
  | .sweep w =>
    { w0 := word (place 2 28 4 :: place (flag w.quiet) 26 1 :: place w.mode.code 24 2 :: place w.pattern.toNat 0 8 :: bandFields w.band)
      w1 := BitVec.ofNat 32 w.segment
      w2 := word [place w.stall 12 20, place w.timeout 0 12] }
  | .seekstorm d p b l =>
    { w0 := word (place 3 28 4 :: place p.code 24 2 :: bandFields b), w1 := BitVec.ofNat 32 d, w2 := place l 12 20 }
  | .powerCycle t => { w0 := place 4 28 4, w1 := BitVec.ofNat 32 t, w2 := 0 }
  | .notify c => { w0 := word [place 5 28 4, place c.toNat 0 8], w1 := 0, w2 := 0 }
  | .hold => { w0 := place 6 28 4, w1 := 0, w2 := 0 }
  | .repeat_ t n => { w0 := word [place 7 28 4, place n 0 8], w1 := BitVec.ofNat 32 t, w2 := 0 }
  | .end_ => { w0 := place 8 28 4, w1 := 0, w2 := 0 }

/-- The step entries of LOAD_PLAN's body after the plan word; none if the words do not come in threes. -/
def readTriples : List Word → Option (List StepWords)
  | [] => some []
  | a :: b :: c :: rest => (readTriples rest).map fun ws => { w0 := a, w1 := b, w2 := c } :: ws
  | _ => none

def stepList (w : StepWords) : List Word := [w.w0, w.w1, w.w2]

/-- R72: a band's limits clamped, and Thi raised to Tlo where it lies below. -/
def Band.clamp (b : Band) : Band :=
  let lo := clampTemperature b.lo
  { lo := lo, hi := max lo (clampTemperature b.hi) }

/-- R72: every field of a step entry clamped into its range. -/
def StepEntry.clamp : StepEntry → StepEntry
  | .soak d b l => .soak (clampNat 1 259200 d) (b.map Band.clamp) (min l 86400)
  | .sweep w => .sweep { w with segment := clampNat 1 4096 w.segment, band := w.band.map Band.clamp
                                stall := min w.stall 86400, timeout := clampNat 1 600 w.timeout }
  | .seekstorm d p b l => .seekstorm (clampNat 1 259200 d) p (b.map Band.clamp) (min l 86400)
  | .powerCycle t => .powerCycle (clampNat 1 3600 t)
  | .repeat_ t n => .repeat_ t (min n 255)
  | e => e

/-- R71, step 4, of one entry at index `k`: a REPEAT target not below its own index, a zero duration, off time or count. -/
def StepEntry.bad (k : Nat) : StepEntry → Bool
  | .soak d _ _ => d == 0
  | .seekstorm d _ _ _ => d == 0
  | .powerCycle t => t == 0
  | .repeat_ t n => decide (k ≤ t) || n == 0
  | _ => false

/-- R71, step 4, of the entries from index `k` on. -/
def badEntries : Nat → List StepEntry → Bool
  | _, [] => false
  | k, e :: es => e.bad k || badEntries (k + 1) es

/-- R71, step 4: no entries, more than 32, a last entry that is not END, or a bad entry. -/
def badPlan (es : List StepEntry) : Bool :=
  es.isEmpty || decide (es.length > 32) || es.getLast? != some .end_ || badEntries 0 es

/-! ## Class entries, grade table (R193) -/

/-- A class entry from its six words, as written. -/
def readClass (w0 w1 w2 w3 w4 w5 : Word) : ClassEntry where
  isurge := bits w0 16 16
  irun := bits w0 0 16
  iseek := bits w1 16 16
  trip := bits w1 0 16
  ts := bits w2 16 16
  tr := bits w2 0 16
  capacity := read48 w3 w4
  minRate := w5.toNat

def ClassEntry.words (e : ClassEntry) : List Word :=
  [word [place e.isurge 16 16, place e.irun 0 16], word [place e.iseek 16 16, place e.trip 0 16],
    word [place e.ts 16 16, place e.tr 0 16]] ++ words48 e.capacity ++ [BitVec.ofNat 32 e.minRate]

/-- R28: Irun clamped first, then Isurge and Iseek into the range from the clamped Irun to 4,000 lu. -/
def ClassEntry.clamp (e : ClassEntry) : ClassEntry :=
  let irun := clampNat 1 4000 e.irun
  { e with irun := irun, isurge := clampNat irun 4000 e.isurge, iseek := clampNat irun 4000 e.iseek
           trip := clampNat 1 6000 e.trip, ts := clampNat 1 30 e.ts, tr := clampNat 5 60 e.tr }

/-- The grade table that five words carry, as written and with all five threshold fields; state and revision are not
theirs to give (R123, R193). -/
def readTable (w1 w2 w3 w4 w5 : Word) : GradeTable where
  set := true
  revision := 0
  wH := bits w1 24 8
  wS := bits w1 16 8
  wT := bits w1 8 8
  binCount := bits w1 0 8
  hardLimit := bits w2 16 16
  seekLimit := bits w2 0 16
  slowLimit := bits w3 16 16
  thresholds := [bits w3 0 16, bits w4 16 16, bits w4 0 16, bits w5 16 16, bits w5 0 16]

/-- R124: every value clamped, and the thresholds beyond the kth not kept. -/
def GradeTable.clamp (g : GradeTable) : GradeTable :=
  let k := clampNat 1 5 g.binCount
  { g with wH := clampNat 1 63 g.wH, wS := min g.wS 15, wT := min g.wT 15, slowLimit := min g.slowLimit 255
           binCount := k, thresholds := g.thresholds.take k }

/-- R124: some value was not taken as written. Thresholds beyond the kth are ignored on input (R193) and do not count. -/
def GradeTable.altered (asked taken : GradeTable) : Bool :=
  !(asked.wH == taken.wH && asked.wS == taken.wS && asked.wT == taken.wT && asked.slowLimit == taken.slowLimit &&
    asked.binCount == taken.binCount)

/-- R123: strictly ascending. -/
def ascending : List Nat → Bool
  | a :: b :: rest => decide (a < b) && ascending (b :: rest)
  | _ => true

/-- The grade table record; thresholds beyond the kth read 0. -/
def GradeTable.words (g : GradeTable) : List Word :=
  let t := fun n => g.thresholds[n]?.getD 0
  [word [place (flag g.set) 31 1, place g.revision.toNat 0 16],
    word [place g.wH 24 8, place g.wS 16 8, place g.wT 8 8, place g.binCount 0 8],
    word [place g.hardLimit 16 16, place g.seekLimit 0 16], word [place g.slowLimit 16 16, place (t 0) 0 16],
    word [place (t 1) 16 16, place (t 2) 0 16], word [place (t 3) 16 16, place (t 4) 0 16]]

/-! ## Identities and completion records (R192) -/

/-- An identity's 19 words. -/
def identityWords (d : Identity) : List Word :=
  packBytes d.serial.toList ++ packBytes d.model.toList ++ packBytes d.firmware.toList ++ words48 d.capacity.toNat

/-- The first five words of a DIRECT_OP reply body: operation kind, start and count as taken. A kind that takes no
sectors reads 0 for both (log entry 13). -/
def DirectOp.words (d : DirectOp) : List Word :=
  BitVec.ofNat 32 d.kind.code :: words48 d.start ++ words48 d.count

/-- The completion record of a DIRECT_OP reply: 29 words, with 0 in every field that the kind does not return (R52). -/
def completionWords (kind : DirectKind) (c : Completion) : List Word :=
  let poll := decide (kind = .healthPoll)
  let verify := decide (kind = .readVerify)
  let codes := if poll then c.faultCodes.take 8 else []
  [word [place c.tag.toNat 24 8, place (completionCode c.status) 22 2, place kind.code 19 3,
      place (if poll then unsigned8 (clampTemperature c.temperature) else 0) 8 8, place codes.length 0 4]] ++
    words48 (if verify then c.sectorsDone.toNat else 0) ++
    [if verify then c.hardErrors else 0, if verify then c.softErrors else 0, 0, 0, c.duration] ++
    fitWords 2 (packBytes codes) ++
    (if kind = .identify then identityWords c.identity else List.replicate 19 0)

end Sys2Proof.Machine
end

