-- ==== Sys2Proof/Machine/Ops.lean ====
section
/-! DEFINITION. The shared operations: updates of one slot, tray, lot, queue or port, the AU's raising and dropping of
causes, the notices and replies placed on the outgoing paths, the end of an event, and the passing of one millisecond. -/

namespace Sys2Proof.Machine

/-! ## Updates -/

def State.setSlot (s : State) (i : SlotId) (x : Slot) : State := { s with slots := s.slots.set i x }

def State.modSlot (s : State) (i : SlotId) (f : Slot → Slot) : State := s.setSlot i (f (s.slot i))

def State.modRecord (s : State) (i : SlotId) (f : Record → Record) : State :=
  s.modSlot i fun x => { x with record := f x.record }

def State.modSm (s : State) (i : SlotId) (f : SlotTimers → SlotTimers) : State :=
  s.modSlot i fun x => { x with sm := f x.sm }

def State.modPau (s : State) (i : SlotId) (f : PowerTimers → PowerTimers) : State :=
  s.modSlot i fun x => { x with pau := f x.pau }

def State.modDpe (s : State) (i : SlotId) (f : Engine → Engine) : State :=
  s.modSlot i fun x => { x with dpe := f x.dpe }

def State.modTest (s : State) (i : SlotId) (f : TestRecord → TestRecord) : State :=
  s.modSlot i fun x => { x with test := f x.test }

/-- Change the run context of a slot, if it has one. -/
def State.modRun (s : State) (i : SlotId) (f : RunContext → RunContext) : State :=
  s.modRecord i fun r => { r with run := r.run.map f }

def State.modTray (s : State) (t : TrayId) (f : Tray → Tray) : State := { s with trays := s.trays.set t (f s.trays[t]) }

def State.modPlan (s : State) (p : PlanId) (f : Plan → Plan) : State := { s with plans := s.plans.set p (f s.plans[p]) }

def State.modLot (s : State) (n : LotId) (f : Lot → Lot) : State := { s with lots := s.lots.set n (f s.lots[n]) }

def State.modBin (s : State) (b : Bin) (f : List SlotId → List SlotId) : State :=
  { s with binQueues := s.binQueues.set b.index (f s.binQueues[b.index]) }

def State.modLink (s : State) (p : Port) (f : LinkPort → LinkPort) : State :=
  match p with
  | .a => { s with linkA := f s.linkA }
  | .b => { s with linkB := f s.linkB }

def State.modAtt (s : State) (p : Port) (f : Attention → Attention) : State :=
  match p with
  | .a => { s with attA := f s.attA }
  | .b => { s with attB := f s.attB }

/-! ## The AU -/

/-- R165: a cause set holds each cause at most once. -/
def addCause {α : Type} [DecidableEq α] (set : List α) (c : α) : List α := if c ∈ set then set else set ++ [c]

/-- R164, R165 for one master: a cause whose kind the mask disables is not recorded; a recorded one is the event's first
if none was recorded before it (R170, log entry 16). A kind that the master does not receive is never enabled (R172). -/
def Attention.raise (a : Attention) (c : Cause) : Attention :=
  match c with
  | .slot k i =>
    if a.mask.getLsbD k.maskBit then
      { a with slotSets := a.slotSets.set i (addCause a.slotSets[i] k)
               first := if k ∈ a.slotSets[i] then a.first else a.first <|> some c }
    else a
  | .rack k =>
    if a.mask.getLsbD k.maskBit then
      { a with rackSet := addCause a.rackSet k
               first := if k ∈ a.rackSet then a.first else a.first <|> some c }
    else a

/-- Raise a cause toward the master of one port. -/
def State.raiseTo (s : State) (p : Port) (c : Cause) : State := s.modAtt p fun a => a.raise c

/-- Raise a slot cause toward both masters; each records the kinds it receives (R164). -/
def State.raiseSlot (s : State) (c : SlotCause) (i : SlotId) : State :=
  (s.raiseTo .a (.slot c i)).raiseTo .b (.slot c i)

/-- R169: teardown drops every cause pending in the slot's sets of both masters. -/
def State.dropCauses (s : State) (i : SlotId) : State :=
  let clear := fun a : Attention => { a with slotSets := a.slotSets.set i [] }
  (s.modAtt .a clear).modAtt .b clear

/-! ## The LI's outgoing paths -/

def State.linkIsUp (s : State) (p : Port) : Bool := (s.link p).link == .up

/-- Place a packet at the tail of a port's outgoing path (R182). -/
def State.pushOut (s : State) (p : Port) (x : OutPacket) : State := s.modLink p fun l => { l with out := l.out ++ [x] }

/-- A notice handed to the LI: held while the reset input is low (R188, log entry 18), else placed on an UP port and dropped on a DOWN
one (R171, R182). -/
def State.placeNotice (s : State) (p : Port) (n : Notice) : State :=
  if s.resetLow then s.modLink p fun l => { l with held := l.held ++ [n] }
  else if s.linkIsUp p then s.pushOut p (.notice n)
  else s

/-! ## The end of an event -/

/-- R170 for one master, made once on the sets as the whole event has left them: an ATTENTION naming the first cause
recorded when the summary has become non-empty with the notice state CLEAR; back to CLEAR when it has become empty. -/
def State.testNotice (s : State) (p : Port) : State :=
  let a := s.att p
  let s := s.modAtt p fun a => { a with first := none }
  match a.notice, a.isEmpty, a.first with
  | .clear, false, some c => (s.placeNotice p (.attention s.now c)).modAtt p fun a => { a with notice := .sent }
  | .sent, true, _ => s.modAtt p fun a => { a with notice := .clear }
  | _, _, _ => s

/-- What follows every event: the notice test of each master (R170). -/
def State.endEvent (s : State) : State := (s.testNotice .a).testNotice .b

/-! ## The passing of time -/

/-- One millisecond of credit for a slot (R79, R80, R83, R84), saturating (R2, R74). -/
def State.creditTick (s : State) (i : SlotId) : State :=
  if s.accrues i then s.modRun i fun c => { c with credit := satAdd 4294967295 c.credit 1 } else s

/-- One millisecond of rack time (R1): every slot whose credit accrues gains it. -/
def State.tick (s : State) : State := allSlots.foldl State.creditTick { s with now := s.now + 1 }

/-! ## Slots -/

/-- A slot's state changes: purpose and hold cause stay only in the states that have them (R4), and each timer only in the
state it runs in (R12, R23). -/
def State.enter (s : State) (i : SlotId) (st : SlotState) : State :=
  let s := s.modRecord i fun r => { r with state := st, purpose := if st = .poweringDown then r.purpose else none
                                           holdCause := if st = .held then r.holdCause else none }
  s.modSm i fun m => { m with declareTimer := if st = .loaded then m.declareTimer else none
                              unloadTimer := if st = .unloading then m.unloadTimer else none }

/-- The plan use count goes up by one (R73). -/
def State.usePlan (s : State) (p : PlanId) : State := s.modPlan p fun q => { q with useCount := q.useCount + 1 }

/-- The plan use count goes down by one (R73). -/
def State.releasePlan (s : State) (p : PlanId) : State := s.modPlan p fun q => { q with useCount := q.useCount - 1 }

/-- The test record is cleared (R109). -/
def State.clearTest (s : State) (i : SlotId) : State := s.modTest i fun _ => {}

/-- R12: the declare timer starts, with the timeout in force. -/
def State.startDeclare (s : State) (i : SlotId) : State :=
  s.modSm i fun m => { m with declareTimer := some (afterSec s.now s.line.declareTime) }

/-- R23: the unload timer starts, with the timeout in force. -/
def State.startUnload (s : State) (i : SlotId) : State :=
  s.modSm i fun m => { m with unloadTimer := some (afterSec s.now s.line.unloadTime) }

end Sys2Proof.Machine
end

