-- ==== Sys2Proof/Machine/DrivePort.lean ====
section
/-! DEFINITION. The Drive Port Engines (chapter 3): issuing at an opening, port resets, patrol, the end of direct
operations, and power coming on and going off. -/

namespace Sys2Proof.Machine

/-! ## Direct operations (R65, R66, R182) -/

/-- R182: the end of a direct operation. Its outstanding-reply record is removed, and the reply is placed on port A's
outgoing path unless the drop mark is set or port A is DOWN. -/
def State.replyDirect (s : State) (i : SlotId) (st : Status) (body : List Word) : State :=
  match s.outstanding.find? fun o => o.slot == i with
  | none => s
  | some o =>
    let s := { s with outstanding := s.outstanding.filter fun o => o.slot != i }
    if !o.mark && s.linkIsUp .a then
      s.pushOut .a (.reply { tag := o.tag, kind := BitVec.ofNat 8 ReqKind.directOp.code, status := st, done := true
                             addressValid := true, body := body, direct := true })
    else s

/-- The direct operation waiting or in flight at a port (R64). -/
def Engine.directOp (e : Engine) : Option DirectOp :=
  match e.direct with
  | some d => some d
  | none =>
    match e.inFlight with
    | some f => match f.requester with
      | .direct d => some d
      | _ => none
    | none => none

/-- R66: a direct operation, waiting or in flight, is ended early; its reply carries WRONG_STATE (log entry 17). -/
def State.endDirect (s : State) (i : SlotId) : State :=
  match (s.dpe i).directOp with
  | none => s
  | some d => (s.modDpe i fun e => { e with direct := none }).replyDirect i .wrongState d.words

/-! ## Patrol (R60, R61) -/

/-- R60: the length of the patrol timer, in s. -/
def State.patrolLength (s : State) (i : SlotId) : Nat :=
  match (s.record i).temperature with
  | some t => if s.timing.hot ≤ t then max 1 (s.timing.period / 2) else s.timing.period
  | none => s.timing.period

/-- R60: patrol is active for the slot. -/
def State.patrolActive (s : State) (i : SlotId) : Bool :=
  (s.dpe i).ready &&
    match (s.record i).state with
    | .ready | .running | .held | .poweringDown => true
    | _ => false

/-- The patrol timer starts or restarts, if patrol is active. -/
def State.startPatrol (s : State) (i : SlotId) : State :=
  if s.patrolActive i then
    s.modDpe i fun e => { e with patrolTimer := some (afterSec s.now (s.patrolLength i)) }
  else s

/-- R60: patrol stops: the timer is stopped, a pending poll discarded, the miss counter 0. -/
def Engine.stopPatrol (e : Engine) : Engine := { e with patrolTimer := none, pollPending := false, misses := 0 }

/-! ## Issue (R50, R57) -/

def DirectOp.operation (d : DirectOp) : Operation :=
  match d.kind with
  | .identify => .identify
  | .readVerify => .readVerify d.start d.count
  | .healthPoll => .healthPoll

/-- R51: the timeout of a direct operation, in s. -/
def State.directTimeout (s : State) (d : DirectOp) : Nat :=
  match d.kind with
  | .identify => Config.identifyTimeout
  | .readVerify => Config.directReadTimeout
  | .healthPoll => s.timing.poll

/-- R50: an operation goes out under the next tag, and its timeout starts. -/
def Engine.issue (e : Engine) (now : RackTime) (op : Operation) (who : Requester) (timeout : Nat) : Engine :=
  { e with port := .busy, tag := e.tag + 1
           inFlight := some { op := op, tag := e.tag + 1, requester := who, issued := now, deadline := afterSec now timeout } }

def Owner.requester : Owner → Requester
  | .sm => .sm
  | .sq => .sq

/-- The SQ's phase when its ready operation is issued: ISSUE becomes WAIT_OP (R80, R82, R84); REIDENTIFY stays (R74). -/
def RunContext.issued (c : RunContext) : RunContext := if c.phase = .issue then { c with phase := .waitOp } else c

/-- R57: at an opening the DPE issues the pending poll, else the waiting direct operation, else the owner's ready
operation. Nothing is issued unless the port is IDLE. -/
def State.openPort (s : State) (i : SlotId) : State :=
  let e := s.dpe i
  if e.port ≠ .idle then s
  else if e.pollPending then
    s.modDpe i fun e => { e.issue s.now .healthPoll .patrol s.timing.poll with pollPending := false }
  else
    match e.direct, e.ownerOp with
    | some d, _ => s.modDpe i fun e => { e.issue s.now d.operation (.direct d) (s.directTimeout d) with direct := none }
    | none, some o =>
      let s := s.modDpe i fun e => { e.issue s.now o.op o.owner.requester o.timeout with ownerOp := none }
      if o.owner = .sq then s.modRun i RunContext.issued else s
    | none, none => s

/-- The slot's owner makes an operation ready, which is an opening if the port is IDLE (R57). -/
def State.offer (s : State) (i : SlotId) (who : Owner) (op : Operation) (timeout : Nat) : State :=
  (s.modDpe i fun e => { e with ownerOp := some { owner := who, op := op, timeout := timeout } }).openPort i

/-- R57: the owner takes back an operation that is ready and not yet issued. -/
def State.takeBack (s : State) (i : SlotId) : State := s.modDpe i fun e => { e with ownerOp := none }

/-! ## Port reset and power (R49, R56) -/

/-- R56: a port reset starts. A reset in progress serves this request too; a port that is OFF has none. -/
def Engine.startReset (e : Engine) (now : RackTime) : Engine :=
  match e.port with
  | .off => e
  | .resetting => { e with inFlight := none }
  | _ => { e with port := .resetting, inFlight := none, resetTimer := some (afterSec now Config.resetTime) }

def State.resetPort (s : State) (i : SlotId) : State := s.modDpe i fun e => e.startReset s.now

/-- R49: power has come on: the port goes from OFF to STARTING with the ready flag clear. -/
def State.portOn (s : State) (i : SlotId) : State := s.modDpe i fun e => { e with port := .starting, ready := false }

/-- R49: power has gone off. -/
def State.portOff (s : State) (i : SlotId) : State :=
  (s.endDirect i).modDpe i fun e =>
    { e.stopPatrol with port := .off, inFlight := none, resetTimer := none, ready := false, ownerOp := none }

/-- R17, the DPE's part of teardown: an operation in flight is discarded by a port reset, the pending poll is discarded
with the miss counter 0, a direct operation ends, patrol stops (R60), and the owner's ready operation is taken back. -/
def State.teardownPort (s : State) (i : SlotId) : State :=
  let s := s.endDirect i
  let s := if (s.dpe i).inFlight.isSome then s.resetPort i else s
  s.modDpe i fun e => { e.stopPatrol with ownerOp := none }

end Sys2Proof.Machine
end

