-- ==== Sys2Proof/Machine/Sweep.lean ====
section
/-! DEFINITION. The Sweep Accumulator (chapter 6): zones, the accounting of segments, storms and hot polls, and the step log. -/

namespace Sys2Proof.Machine

/-- R110: the zone size of a capacity. -/
def zoneSize (capacity : Nat) : Nat := capacity / 16

/-- R110: the zone of a sector. -/
def zoneOf (capacity sector : Nat) : Fin 16 :=
  let zs := zoneSize capacity
  if 15 * zs ≤ sector then 15 else ⟨(sector / zs) % 16, Nat.mod_lt _ (by decide)⟩

/-- R110: the first sector after a zone. -/
def zoneEnd (capacity : Nat) (z : Fin 16) : Nat := if z = 15 then capacity else (z.val + 1) * zoneSize capacity

/-- The capacity that the slot record's identity gives. -/
def Record.capacity (r : Record) : Nat :=
  match r.identity with
  | some d => d.capacity.toNat
  | none => 0

/-- R114: the segment is slow. -/
def slowSegment (minRate done duration : Nat) : Bool :=
  decide (0 < minRate) && decide (0 < duration) && decide (done * 1000 < minRate * duration)

/-- R112: a segment's counts added to its zone, saturating field by field (R113). -/
def Zone.account (z : Zone) (done hard soft : Nat) (slow last : Bool) : Zone where
  covered := satAdd 281474976710655 z.covered done
  hard := satAdd 65535 z.hard hard
  soft := satAdd 65535 z.soft soft
  slow := satAdd 255 z.slow (flag slow)
  swept := z.swept || last

/-- R112: a completed segment from sector `start`, `count` sectors, added to the slot's test record. -/
def State.accountSegment (s : State) (i : SlotId) (start count : Nat) (c : Completion) : State :=
  let capacity := (s.record i).capacity
  let z := zoneOf capacity start
  let slow := slowSegment (s.classEntry i).minRate c.sectorsDone.toNat c.duration.toNat
  let last := decide (start + count = zoneEnd capacity z)
  s.modTest i fun t =>
    { t with zones := t.zones.set z (t.zones[z].account c.sectorsDone.toNat c.hardErrors.toNat c.softErrors.toNat slow last) }

/-- R117: a storm's totals, saturating. -/
def State.accountStorm (s : State) (i : SlotId) (c : Completion) : State :=
  s.modTest i fun t => { t with seeksDone := satAdd 4294967295 t.seeksDone c.seeksDone.toNat
                                seekErrors := satAdd 65535 t.seekErrors c.seekErrors.toNat }

/-- R118: one hot patrol reading during a sweep, saturating. -/
def State.accountHot (s : State) (i : SlotId) : State :=
  s.modTest i fun t => { t with thermal := satAdd 255 t.thermal 1 }

/-- R119: an entry appended to the step log; from a full log the oldest is removed first and the wrapped flag set. -/
def TestRecord.append (t : TestRecord) (e : LogEntry) : TestRecord :=
  if t.log.length < Config.logDepth then { t with log := t.log ++ [e] }
  else { t with log := t.log.drop 1 ++ [e], wrapped := true }

/-- R78: the log entry of the slot's step, written as it ends with `outcome`. -/
def State.logStep (s : State) (i : SlotId) (outcome : StepOutcome) : State :=
  match (s.record i).run, s.stepEntry i with
  | some c, some e =>
    s.modTest i fun t =>
      t.append { step := c.step, kind := e.kind, outcome := outcome, credit := c.credit / 1000, at_ := s.now }
  | _, _ => s

end Sys2Proof.Machine
end

