-- ==== Sys2Proof/Machine/Power.lean ====
section
/-! DEFINITION. The Power Admission Unit (chapter 2): load phases and the committed load, the admission queue and its head
test, the spin-up window, surge end, seek release and power cuts; and, because an admission starts it, the SQ's offering
of the next segment or storm (R80, R82). -/

namespace Sys2Proof.Machine

/-! ## The SQ's next operation -/

/-- R80: the next segment starts at the cursor and runs to the segment size or to the end of the cursor's zone. -/
def segmentCount (capacity cursor units : Nat) : Nat :=
  min (units * Config.unitSectors) (zoneEnd capacity (zoneOf capacity cursor) - cursor)

/-- R80: the operation of the next segment. -/
def SweepStep.operation (w : SweepStep) (capacity cursor : Nat) : Operation :=
  let n := segmentCount capacity cursor w.segment
  match w.mode with
  | .readVerify => .readVerify cursor n
  | .writeVerify => .writeVerify cursor n w.pattern

def State.setPhase (s : State) (i : SlotId) (ph : StepPhase) : State := s.modRun i fun c => { c with phase := ph }

/-- R80, R82: the step proceeds: while the band state is OUT it waits in WAIT_BAND; else its next operation is made
ready, phase ISSUE. -/
def State.proceedWith (s : State) (i : SlotId) (band : BandState) (op : Operation) (timeout : Nat) : State :=
  if band = .out then s.setPhase i .waitBand else (s.setPhase i .issue).offer i .sq op timeout

/-- R80: a SWEEP step proceeds to its next segment. -/
def State.proceedSweep (s : State) (i : SlotId) : State :=
  match (s.record i).run, s.stepEntry i with
  | some c, some (.sweep w) => s.proceedWith i c.band (w.operation (s.record i).capacity c.cursor) w.timeout
  | _, _ => s

/-- R82: the duration of the next storm: the remaining credit rounded up to whole seconds, at most 60 s. -/
def stormDuration (duration credit : Nat) : Nat := min Config.stormMax ((duration * 1000 - credit + 999) / 1000)

/-- R82: a SEEKSTORM step proceeds to its next storm operation. -/
def State.proceedStorm (s : State) (i : SlotId) : State :=
  match (s.record i).run, s.stepEntry i with
  | some c, some (.seekstorm d p _ _) =>
    let n := stormDuration d c.credit
    s.proceedWith i c.band (.seekStorm n p) (n + Config.stormMargin)
  | _, _ => s

/-! ## Load phases (R31) -/

/-- R31: the load phase changes, and L with it by the difference of the two phase loads. -/
def State.setLoad (s : State) (i : SlotId) (ph : LoadPhase) : State :=
  { s.modRecord i fun r => { r with phase := ph } with load := s.load + s.loadIn i ph - s.phaseLoad i }

/-! ## The admission queue (R32 to R37) -/

/-- R34: the entry now at the head has become the head: its head-wait timer starts. With no entry no timer runs, and the
head time reads 0 (R193). -/
def State.newHead (s : State) : State :=
  match s.admission with
  | [] => { s with headSince := 0, headWait := none }
  | _ :: _ => { s with headSince := s.now, headWait := some (afterSec s.now Config.headWait) }

/-- R35: what the head adds to L. -/
def State.increment (s : State) (e : AdmissionEntry) : Nat :=
  match e.kind with
  | .spinup => (s.classEntry e.slot).isurge
  | .seek => (s.classEntry e.slot).iseek - (s.classEntry e.slot).irun

/-- R35: the head's condition holds. Only a SPINUP head has the window condition. -/
def State.admissible (s : State) (e : AdmissionEntry) : Bool :=
  decide (s.load + s.increment e ≤ s.line.budget) &&
    match e.kind with
    | .spinup => decide (s.window.length < s.line.windowCount)
    | .seek => true

/-- R39: the starts younger than tW (log entry 32). -/
def State.youngWindow (s : State) : List RackTime := s.window.filter fun t => decide (age s.now t < s.line.window * 1000)

/-- R36, steps 2 to 5: the window takes the start, the switch closes, the timers start, the port is told. -/
def State.powerOnSlot (s : State) (i : SlotId) : State :=
  let s := { s with window := s.youngWindow ++ [s.now] }
  let s := s.setLoad i .surge
  let k := s.classEntry i
  let s := s.modPau i fun _ => { surgeTimer := some (afterSec s.now k.ts), readyTimer := some (afterSec s.now k.tr) }
  s.portOn i

/-- R36: a SPINUP entry that has left the queue is admitted. Its slot is in SPIN_WAIT or at a POWER_CYCLE step (R32). -/
def State.admitSpinup (s : State) (i : SlotId) : State :=
  match (s.record i).state with
  | .spinWait => (s.powerOnSlot i).enter i .spinning
  | .running => (s.powerOnSlot i).setPhase i .surge
  | _ => s

/-- R37: a SEEK entry that has left the queue is admitted, and the SEEKSTORM step may issue storms. Its slot is RUNNING in
load phase RUN (R32). -/
def State.admitSeek (s : State) (i : SlotId) : State :=
  if (s.record i).state = .running ∧ (s.record i).phase = .run then (s.setLoad i .seek).proceedStorm i else s

def State.admitEntry (s : State) (e : AdmissionEntry) : State :=
  match e.kind with
  | .spinup => s.admitSpinup e.slot
  | .seek => s.admitSeek e.slot

/-- R35: the head is tested and, while the test holds, admitted; the next entry becomes the head and is tested at once.
`n` bounds the turn by the entries of the queue. -/
def State.testHeads : Nat → State → State
  | 0, s => s
  | n + 1, s =>
    match s.admission with
    | [] => s
    | e :: rest => if s.admissible e then (({ s with admission := rest }.admitEntry e).newHead).testHeads n else s

/-- R35: the test of the admission queue's head. -/
def State.testHead (s : State) : State := s.testHeads s.admission.length

/-- R32: an entry is filed at the tail; a slot holds at most one. In an empty queue it is the head and is tested at once. -/
def State.fileAdmission (s : State) (i : SlotId) (kind : AdmissionKind) : State :=
  if s.admission.any fun e => e.slot == i then s
  else
    let entry := { slot := i, kind := kind, arrival := s.now }
    if s.admission.isEmpty then ({ s with admission := [entry] }.newHead).testHead
    else { s with admission := s.admission ++ [entry] }

/-- R33: the slot's entry is removed. The removal of the head makes the next entry the head, which is tested at once. -/
def State.removeAdmission (s : State) (i : SlotId) : State :=
  let rest := s.admission.filter fun e => e.slot != i
  match s.admission with
  | [] => s
  | e :: _ => if e.slot = i then ({ s with admission := rest }.newHead).testHead else { s with admission := rest }

/-! ## Surge end, seek release, power cut (R37, R40, R42) -/

/-- R40: the surge ends. -/
def State.endSurge (s : State) (i : SlotId) : State :=
  if (s.record i).phase = .surge then
    (((s.setLoad i .run).modPau i fun t => { t with surgeTimer := none })).testHead
  else s

/-- R37: the seek load is released. -/
def State.releaseSeek (s : State) (i : SlotId) : State :=
  if (s.record i).phase = .seek then (s.setLoad i .run).testHead else s

/-- R42, R44: the switch opens: load phase OFF, L lowered, the timers stopped, the port told. -/
def State.switchOff (s : State) (i : SlotId) : State := ((s.setLoad i .off).modPau i fun _ => {}).portOff i

/-- R15, R42: the slot's power is cut, and the head is tested. A cut of an unpowered slot has no effect. -/
def State.cutPower (s : State) (i : SlotId) : State :=
  if (s.record i).powered then (s.switchOff i).testHead else s

end Sys2Proof.Machine
end

