-- ==== Sys2Proof/Machine/Trays.lean ====
section
/-! DEFINITION. The Vibration Group Arbiter (chapter 5): requests for tray claims, grants, releases and withdrawals. -/

namespace Sys2Proof.Machine

/-- R97: a request's kind is compatible with the tray's holders. -/
def Tray.compatible (t : Tray) : ClaimKind → Bool
  | .quiet => t.stormCount == 0
  | .storm => t.quietCount == 0

/-- R99: a grant in tray `t`: the slot joins the holder set, and the step leaves WAIT_GROUP: a SWEEP proceeds to its next segment, a
SEEKSTORM files its SEEK entry and enters WAIT_LOAD. -/
def State.grantClaim (s : State) (t : TrayId) (i : SlotId) (kind : ClaimKind) : State :=
  let s := s.modTray t fun t => { t with holders := t.holders ++ [{ slot := i, kind := kind }] }
  match kind with
  | .quiet => s.proceedSweep i
  | .storm => (s.setPhase i .waitLoad).fileAdmission i .seek

/-- R98: the head of a tray's queue is tested and, while compatible, granted; `n` bounds the turn by the entries. -/
def State.testTrays : Nat → TrayId → State → State
  | 0, _, s => s
  | n + 1, t, s =>
    match s.trays[t].queue with
    | [] => s
    | e :: rest =>
      if s.trays[t].compatible e.kind then
        State.testTrays n t ((s.modTray t fun x => { x with queue := rest }).grantClaim t e.slot e.kind)
      else s

/-- R98: the test of a tray's head. -/
def State.testTray (s : State) (t : TrayId) : State := State.testTrays s.trays[t].queue.length t s

/-- The slot holds a claim or waits in its tray (R96). -/
def Tray.names (t : Tray) (i : SlotId) : Bool := (t.holders.any fun h => h.slot == i) || t.queue.any fun e => e.slot == i

/-- R97: the SQ asks for a claim. -/
def State.requestClaim (s : State) (i : SlotId) (kind : ClaimKind) : State :=
  let t := s.trays[trayOf i]
  if t.names i then s
  else if t.queue.isEmpty && t.compatible kind then s.grantClaim (trayOf i) i kind
  else s.modTray (trayOf i) fun t => { t with queue := t.queue ++ [{ slot := i, kind := kind, arrival := s.now }] }

/-- R100: a claim is released, and the head is tested. -/
def State.releaseClaim (s : State) (i : SlotId) : State :=
  if s.trays[trayOf i].holders.any fun h => h.slot == i then
    (s.modTray (trayOf i) fun t => { t with holders := t.holders.filter fun h => h.slot != i }).testTray (trayOf i)
  else s

/-- R103: a queue entry is withdrawn or removed; only that of the head starts a test. -/
def State.withdrawClaim (s : State) (i : SlotId) : State :=
  match s.trays[trayOf i].queue with
  | [] => s
  | e :: rest =>
    if e.slot = i then (s.modTray (trayOf i) fun t => { t with queue := rest }).testTray (trayOf i)
    else s.modTray (trayOf i) fun t => { t with queue := e :: rest.filter fun x => x.slot != i }

/-- R101, R102: the slot's tray holding, claim or queue entry, is returned. -/
def State.returnTray (s : State) (i : SlotId) : State := (s.releaseClaim i).withdrawClaim i

end Sys2Proof.Machine
end

