-- ==== Sys2Proof/Machine/Lots.lean ====
section
/-! DEFINITION. The Bin and Lot Unit (chapter 8): placement, lots filling and completing, and what a removal does to them. -/

namespace Sys2Proof.Machine

def State.setPlacement (s : State) (i : SlotId) (p : Placement) : State := s.modRecord i fun r => { r with placement := p }

def State.setEntries (s : State) (n : LotId) (es : List LotEntry) : State := s.modLot n fun l => { l with entries := es }

def State.setLotState (s : State) (n : LotId) (st : LotState) : State := s.modLot n fun l => { l with state := st }

/-- The serial a lot entry takes: 20 spaces when the record holds no identity (R144). -/
def Record.serial (r : Record) : Chars 20 :=
  match r.identity with
  | some d => d.serial
  | none => Vector.replicate 20 space

/-- R144: the entry that placement creates for a slot with verdict `v`. -/
def State.lotEntry (s : State) (i : SlotId) (v : Verdict) : LotEntry where
  serial := (s.record i).serial
  slot := i
  kind := v.kind
  score := if v.kind = .graded then v.score else none
  state := .unpicked

/-- R145: a lot whose entry count has come to its capacity becomes FULL, and LOT_FULL is raised. -/
def State.testFull (s : State) (n : LotId) : State :=
  if s.lots[n].entries.length = s.lots[n].capacity then (s.setLotState n .full).raiseTo .b (.rack (.lotFull n)) else s

/-- R144, R145: an entry for the slot is appended to an OPEN lot, and the slot's placement names the lot. -/
def State.appendEntry (s : State) (n : LotId) (i : SlotId) (v : Verdict) : State :=
  ((s.setEntries n (s.lots[n].entries ++ [s.lotEntry i v])).setPlacement i (.lot n)).testFull n

/-- R143: the OPEN lot of a bin opened earliest. -/
def State.openLotOf (s : State) (b : Bin) : Option LotId :=
  s.opening.find? fun n => s.lots[n].state == .open_ && s.lots[n].bin == b

/-- R144: placement of a slot in DONE with a verdict; without one nothing is placed (log entry 35). -/
def State.placeSlot (s : State) (i : SlotId) : State :=
  match (s.record i).verdict with
  | none => s
  | some v =>
    match s.openLotOf v.bin with
    | some n => s.appendEntry n i v
    | none => (s.modBin v.bin fun q => q ++ [i]).setPlacement i .pending

/-- The slot leaves the pending queue it is in, and its placement becomes NONE (R146). -/
def State.leaveQueue (s : State) (i : SlotId) : State :=
  match (s.record i).placement, (s.record i).verdict with
  | .pending, some v => (s.modBin v.bin fun q => q.filter fun x => x != i).setPlacement i .none
  | _, _ => s

/-- R148, step 2: slots move from the head of a pending queue into an OPEN lot, oldest first, until the queue is empty or
the lot is at capacity. The list is the queue as it stands. -/
def State.drainInto (n : LotId) : List SlotId → State → State
  | [], s => s
  | i :: rest, s =>
    if s.lots[n].state ≠ .open_ then s
    else
      match (s.record i).verdict with
      | none => s
      | some v => drainInto n rest ((s.modBin s.lots[n].bin fun _ => rest).appendEntry n i v)

/-- The pending queue of the lot's bin is drained into the lot. -/
def State.fillLot (s : State) (n : LotId) : State := State.drainInto n s.binQueues[s.lots[n].bin.index] s

/-- The lot becomes FREE, reads as a FREE lot does, and leaves the opening order (R143, R147). -/
def State.freeLot (s : State) (n : LotId) : State :=
  { s.modLot n fun _ => {} with opening := s.opening.filter fun x => x != n }

/-- Every entry is PICKED or LOST (R150). -/
def Lot.finished (l : Lot) : Bool := l.entries.all fun e => e.state == .picked || e.state == .lost

/-- R150: a FULL or CLOSED lot whose entries are all PICKED or LOST becomes COMPLETE, and LOT_COMPLETE is raised. -/
def State.testComplete (s : State) (n : LotId) : State :=
  let l := s.lots[n]
  if (l.state = .full ∨ l.state = .closed) ∧ l.finished then
    (s.setLotState n .complete).raiseTo .b (.rack (.lotComplete n))
  else s

/-- The state of a slot's entry changes where it stands (R147); entries of other slots and in other states stay. -/
def changeEntry (i : SlotId) (old new : EntryState) (es : List LotEntry) : List LotEntry :=
  es.map fun e => if e.slot = i ∧ e.state = old then { e with state := new } else e

/-- R147, R152 to R155: the entry that the slot's placement names changes state. -/
def State.markEntry (s : State) (i : SlotId) (old new : EntryState) : State :=
  match (s.record i).placement with
  | .lot n => s.setEntries n (changeEntry i old new s.lots[n].entries)
  | _ => s

/-- R150 for the lot that the slot's placement names. -/
def State.testSlotLot (s : State) (i : SlotId) : State :=
  match (s.record i).placement with
  | .lot n => s.testComplete n
  | _ => s

/-- R153: the removal of a drive in UNLOADING marks its PICKING entry PICKED and tests the lot. -/
def State.pickDone (s : State) (i : SlotId) : State := (s.markEntry i .picking .picked).testSlotLot i

/-- R155: the removal of a drive in DONE, by its placement. -/
def State.mispick (s : State) (i : SlotId) : State := ((s.markEntry i .unpicked .lost).testSlotLot i).leaveQueue i

/-- The slot has a PICKING entry in the lot its placement names (R154). -/
def State.isPicking (s : State) (i : SlotId) : Bool :=
  match (s.record i).placement with
  | .lot n => s.lots[n].entries.any fun e => e.slot == i && e.state == .picking
  | _ => false

end Sys2Proof.Machine
end

