-- ==== Sys2Proof/Machine/GradingEngine.lean ====
section
/-! DEFINITION. The Grading Engine (chapter 7): the computation of bin, score and flags, the grading queue and the take. -/

namespace Sys2Proof.Machine

/-- R133: the units of a zone. -/
def Zone.units (z : Zone) : Nat := z.covered / Config.unitSectors

/-- R133: the weighted count of a zone. -/
def Zone.weighted (g : GradeTable) (z : Zone) : Nat := g.wH * z.hard + g.wS * z.soft

/-- R134: the density of a weighted count over a number of units. -/
def density (weighted units : Nat) : Nat :=
  if units = 0 then (if weighted = 0 then 0 else 65535) else min 65535 (weighted * 4096 / units)

/-- The 16 zones of a test record in order. -/
def TestRecord.zoneList (t : TestRecord) : List Zone := t.zones.toList

/-- R135: the worst zone density. -/
def worstDensity (g : GradeTable) (t : TestRecord) : Nat :=
  (t.zoneList.map fun z => density (z.weighted g) z.units).foldl max 0

/-- R135: the total density, from the sums over the zones. -/
def totalDensity (g : GradeTable) (t : TestRecord) : Nat :=
  density (t.zoneList.map (Zone.weighted g)).sum (t.zoneList.map Zone.units).sum

/-- R136: the base score. -/
def baseScore (worst total : Nat) : Nat := (3 * worst + total + 2) / 4

/-- R137: the score, with the thermal penalty. -/
def gradeScore (g : GradeTable) (t : TestRecord) : Nat :=
  min 65535 (baseScore (worstDensity g t) (totalDensity g t) + g.wT * t.thermal)

/-- The shippable bins, best first. -/
def shippable : List Bin := [.s1, .s2, .s3, .s4, .s5]

/-- R138: the base bin: the first threshold at or above the score gives its bin, else REJECT. -/
def baseBin (thresholds : List Nat) (score : Nat) : Bin :=
  match (thresholds.zip shippable).find? fun p => score ≤ p.1 with
  | some p => p.2
  | none => .reject

/-- R140: one grade worse. -/
def Bin.demoted : Bin → Bin
  | .s1 => .s2
  | .s2 => .s3
  | .s3 => .s4
  | .s4 => .s5
  | .s5 => .reject
  | b => b

/-- A bin that is a shippable grade. -/
def Bin.ships (b : Bin) : Bool := shippable.contains b

/-- R132: every zone has been swept. -/
def TestRecord.covered (t : TestRecord) : Bool := t.zoneList.all Zone.swept

/-- R139: some zone's hard count is above the hard limit. -/
def overHard (g : GradeTable) (t : TestRecord) : Bool := t.zoneList.any fun z => decide (g.hardLimit < z.hard)

/-- R139: the seek errors total is above its limit. -/
def overSeek (g : GradeTable) (t : TestRecord) : Bool := decide (g.seekLimit < t.seekErrors)

/-- R140: some zone's slow-segment count is above the slow limit. -/
def overSlow (g : GradeTable) (t : TestRecord) : Bool := t.zoneList.any fun z => decide (g.slowLimit < z.slow)

/-- R131 to R140: bin, score and flags of a test record under a table. -/
def grade (g : GradeTable) (t : TestRecord) : Bin × Nat × VerdictFlags :=
  if !t.covered then (.rework, 0, { incomplete := true })
  else
    let score := gradeScore g t
    let base := baseBin g.thresholds score
    if overHard g t || overSeek g t then (.reject, score, { hardLimit := overHard g t, seekLimit := overSeek g t })
    else if overSlow g t && base.ships then (base.demoted, score, { demoted := true })
    else (base, score, {})

/-- R141, R20: the GRADED verdict of the engine's grading, stamped with the rack time. -/
def Grading.verdict (e : Grading) (g : GradeTable) (now : RackTime) : Verdict :=
  let r := grade g e.copy
  { kind := .graded, bin := r.1, score := some r.2.1, flags := r.2.2, revision := some e.revision, plan := some e.plan
    at_ := now }

/-- R126, R127: when the engine is IDLE, the table SET and the queue not empty, the engine takes the head. -/
def State.tryTake (s : State) : State :=
  match s.engine, s.gradingQueue with
  | none, e :: rest =>
    if s.grade.set then
      { s with gradingQueue := rest
               engine := some { slot := e.slot, plan := e.plan, revision := s.grade.revision, taken := s.now
                                discard := false, copy := (s.slot e.slot).test } }
    else s
  | _, _ => s

/-- R125: TABLE_UNSET is raised, and the unset-notice flag set, unless the table is SET or the flag is set. -/
def State.noteUnset (s : State) : State :=
  if s.grade.set || s.unsetNotice then s else { s with unsetNotice := true }.raiseTo .a (.rack .tableUnset)

/-- R125, R126: an entry is filed at the tail of the grading queue, and the take conditions are tested. -/
def State.fileGrading (s : State) (i : SlotId) (plan : PlanId) : State :=
  let entry : GradingEntry := { slot := i, plan := plan, arrival := s.now }
  { s with gradingQueue := s.gradingQueue ++ [entry] }.noteUnset.tryTake

/-- R129: the plan number that the GE hands back for a slot in GRADING: that of its entry, else that of the engine. -/
def State.gradingPlan (s : State) (i : SlotId) : Option PlanId :=
  match s.gradingQueue.find? fun e => e.slot == i with
  | some e => some e.plan
  | none =>
    match s.engine with
    | some g => if g.slot = i ∧ ¬ g.discard then some g.plan else none
    | none => none

/-- R129: teardown in the GE: a queue entry is removed, else the slot in the engine is marked. -/
def State.teardownGrading (s : State) (i : SlotId) : State :=
  if s.gradingQueue.any fun e => e.slot == i then
    { s with gradingQueue := s.gradingQueue.filter fun e => e.slot != i }
  else { s with engine := s.engine.map fun g => if g.slot = i then { g with discard := true } else g }

end Sys2Proof.Machine
end

