-- ==== Sys2Proof/Machine/SlotManager.lean ====
section
/-! DEFINITION. The Slot Manager (chapter 1): entries to DONE, UNLOADING, GRADING and POWERING_DOWN, the end of a
power-down, teardown, faults, and the clearing of a slot that becomes EMPTY. -/

namespace Sys2Proof.Machine

/-- R21: entry to DONE with a newly made verdict: the verdict field, the placement, the cause. -/
def State.enterDone (s : State) (i : SlotId) (v : Verdict) : State :=
  let s := s.enter i .done
  let s := s.modSm i fun m => { m with carriedPlan := none, carriedVerdict := none }
  let s := s.modRecord i fun r => { r with verdict := some v }
  (s.placeSlot i).raiseSlot (if v.kind = .fault then .fault else .verdict) i

/-- R23: entry to UNLOADING; the unload timer starts. -/
def State.enterUnloading (s : State) (i : SlotId) : State :=
  let s := s.enter i .unloading
  let s := s.modSm i fun m => { m with carriedPlan := none, carriedVerdict := none }
  s.startUnload i

/-- The SM moves a slot from DONE to UNLOADING for the BLU (R152, R157). -/
def State.doneToUnloading (s : State) (i : SlotId) : State :=
  if (s.record i).state = .done then s.enterUnloading i else s

/-- R20: entry to GRADING; the slot is filed with the plan number carried since END (R88, log entries 12, 35). -/
def State.enterGrading (s : State) (i : SlotId) : State :=
  let plan := ((s.slot i).sm.carriedPlan).getD 0
  let s := s.enter i .grading
  let s := s.modSm i fun m => { m with carriedPlan := none, carriedVerdict := none }
  s.fileGrading i plan

/-- R19: the power-down ends: the power is cut and the slot moves on by purpose. -/
def State.endPowerDown (s : State) (i : SlotId) : State :=
  if (s.record i).state ≠ .poweringDown then s
  else
    let s := s.cutPower i
    match (s.record i).purpose, (s.slot i).sm.carriedVerdict with
    | some .grade, _ => s.enterGrading i
    | some .abort, some v => s.enterDone i v
    | some .unload, _ => s.enterUnloading i
    | _, _ => s

/-- R19: a power-down is asked for. With a ready drive the slot enters POWERING_DOWN, patrol goes on (starting again after
a teardown, R60), and the SM makes a STANDBY ready; else the power is cut if it is on and the slot moves on at once. -/
def State.powerDown (s : State) (i : SlotId) (p : Purpose) : State :=
  let s := s.enter i .poweringDown
  let s := s.modRecord i fun r => { r with purpose := some p }
  if (s.dpe i).ready then
    let s := if (s.dpe i).patrolTimer.isNone then s.startPatrol i else s
    s.offer i .sm .standby Config.standbyTimeout
  else s.endPowerDown i

/-- R17, the SQ's part of teardown: the use count of each plan named falls; run context, start-on-ready plan and hold
cause become absent. -/
def State.dropPlans (s : State) (i : SlotId) : State :=
  let r := s.record i
  let s := match r.run with
    | some c => s.releasePlan c.plan
    | none => s
  let s := match r.startPlan with
    | some p => s.releasePlan p
    | none => s
  s.modRecord i fun r => { r with run := none, startPlan := none, holdCause := none }

/-- R17, R18, R120: teardown, in the order of the table of R17; the step of the slot's run context is logged first, with
`outcome`, a HOLD step too (log entry 9). -/
def State.teardown (s : State) (i : SlotId) (outcome : StepOutcome) : State :=
  let s := s.logStep i outcome
  let s := s.teardownPort i
  let s := s.removeAdmission i
  let s := s.releaseSeek i
  let s := s.returnTray i
  let s := s.teardownGrading i
  let s := s.dropPlans i
  s.dropCauses i

/-- R16, step 3: the plan number of a FAULT verdict. -/
def State.faultPlan (s : State) (i : SlotId) : Option PlanId :=
  let r := s.record i
  let m := (s.slot i).sm
  match r.state with
  | .poweringDown =>
    match r.purpose with
    | some .grade => m.carriedPlan
    | _ => m.carriedVerdict.bind Verdict.plan
  | _ =>
    match r.run with
    | some c => some c.plan
    | none => r.startPlan

/-- R16: a fault is taken: teardown, power cut, verdict, entry to DONE. -/
def State.faultToDone (s : State) (i : SlotId) (f : FaultCause) : State :=
  let v : Verdict := { kind := .fault, bin := .rework, faultCause := some f, plan := s.faultPlan i, at_ := s.now }
  ((s.teardown i .fault).cutPower i).enterDone i v

/-- R16: a fault during a power-down of purpose UNLOAD: the power is cut, the slot moves to UNLOADING, FAULT is raised. -/
def State.faultToUnloading (s : State) (i : SlotId) : State :=
  ((s.cutPower i).enterUnloading i).raiseSlot .fault i

/-- R16: a fault reported for a slot, by the slot's state; dropped where the activity that raised it has ended. -/
def State.takeFault (s : State) (i : SlotId) (f : FaultCause) : State :=
  match (s.record i).state with
  | .spinWait | .spinning | .identifying | .ready | .running | .held => s.faultToDone i f
  | .poweringDown => if (s.record i).purpose = some .unload then s.faultToUnloading i else s.faultToDone i f
  | .disabled | .empty | .loaded | .grading | .done | .unloading => s

/-- R10, R109: the slot becomes EMPTY: its record and its test record are cleared, its timers stopped. -/
def State.becomeEmpty (s : State) (i : SlotId) : State :=
  s.modSlot i fun x => { x with record := {}, test := {}
                                sm := { x.sm with declareTimer := none, unloadTimer := none
                                                  carriedPlan := none, carriedVerdict := none } }

/-- An ABORTED verdict (R20, R94, R154). -/
def State.abortedVerdict (s : State) (plan : Option PlanId) : Verdict :=
  { kind := .aborted, bin := .rework, plan := plan, at_ := s.now }

/-- R11, R12, R76: the slot moves to SPIN_WAIT and files a SPINUP entry. -/
def State.enterSpinWait (s : State) (i : SlotId) : State := (s.enter i .spinWait).fileAdmission i .spinup

end Sys2Proof.Machine
end

