-- ==== Sys2Proof/Machine/Sequencer.lean ====
section
/-! DEFINITION. The Step Sequencer (chapter 4): band evaluation, entry to HELD, the beginning and end of steps, the chain of
steps that take no time, and what the SQ does with the results of its operations. -/

namespace Sys2Proof.Machine

/-! ## Band (R89) -/

/-- R89: the state of a band at a temperature; OUT when the temperature is absent. -/
def Band.evaluate (b : Band) : Option Int → BandState
  | some t => if b.lo ≤ t ∧ t ≤ b.hi then .in_ else .out
  | none => .out

/-- R89: the band found OUT starts the stall timer if the stall limit is nonzero. -/
def RunContext.goOut (c : RunContext) (now : RackTime) (stall : Nat) : RunContext :=
  { c with band := .out, outSince := some now, stallTimer := if stall = 0 then none else some (afterSec now stall) }

/-- R89: one evaluation. `fresh` is that at a step's beginning or at RESUME, where OUT is a change to OUT whatever the band
held before. While the slot is HELD only the band state changes. A step without a band has state NONE (log entry 14). -/
def RunContext.evaluated (c : RunContext) (now : RackTime) (held fresh : Bool) (e : Option StepEntry)
    (temperature : Option Int) : RunContext :=
  match e.bind StepEntry.band with
  | none => { c with band := .none }
  | some b =>
    match b.evaluate temperature with
    | .out =>
      if held then { c with band := .out }
      else if fresh || c.band != .out then c.goOut now ((e.map StepEntry.stall).getD 0)
      else c
    | v => if held then { c with band := v } else { c with band := v, outSince := none, stallTimer := none }

def State.evaluateBand (s : State) (i : SlotId) (fresh : Bool) : State :=
  s.modRun i fun c =>
    c.evaluated s.now (decide ((s.record i).state = .held)) fresh (s.stepEntry i) (s.record i).temperature

/-- R80, R82: a SWEEP or SEEKSTORM step proceeds to its next operation. -/
def State.proceed (s : State) (i : SlotId) : State :=
  match s.stepEntry i with
  | some (.sweep _) => s.proceedSweep i
  | some (.seekstorm ..) => s.proceedStorm i
  | _ => s

/-- R80, R82: the kind's rule acts on the band state: in WAIT_BAND the next operation is made ready once the band is not
OUT; in ISSUE the ready operation is taken back when it is OUT. -/
def State.actOnBand (s : State) (i : SlotId) : State :=
  match (s.record i).state, (s.record i).run, s.stepEntry i with
  | .running, some c, some e =>
    if e.kind ≠ .sweep ∧ e.kind ≠ .seekstorm then s
    else if c.phase = .waitBand ∧ c.band ≠ .out then s.proceed i
    else if c.phase = .issue ∧ c.band = .out then (s.takeBack i).setPhase i .waitBand
    else s
  | _, _, _ => s

/-- R62, step 5: the temperature just stored is passed to the SQ. -/
def State.temperatureToSq (s : State) (i : SlotId) : State := (s.evaluateBand i false).actOnBand i

/-! ## Entry to HELD (R92) -/

/-- The phase at a timed step's beginning, and its resume point where R93 takes the step's first action again. -/
def StepEntry.firstPhase : StepEntry → StepPhase
  | .soak .. => .waitBand
  | .sweep w => if w.quiet then .waitGroup else .issue
  | .seekstorm .. => .waitGroup
  | _ => .issue

/-- R92, R93: the resume point that the step phase records at entry to HELD. DESIGN CHOICE (log entry 37): a SWEEP without quiet
flag shows ISSUE, whatever phase it was held from; R93 gives its resume as the next segment and names no phase. -/
def StepEntry.resumePhase (e : StepEntry) (now : StepPhase) : StepPhase :=
  match e, now with
  | .powerCycle _, .off => .off
  | .powerCycle _, .waitSpinup => .waitSpinup
  | .powerCycle _, .surge => .surge
  | .powerCycle _, .reidentify => .reidentify
  | .powerCycle _, _ => .issue
  | e, _ => e.firstPhase

/-- R92, the run context at entry to HELD. A HOLD step has no phase: it shows a free value (log entry 1). -/
def RunContext.heldAt (c : RunContext) (e : Option StepEntry) (freeCount : Nat) : RunContext :=
  let phase := match e with
    | some .hold => Config.holdStepPhase freeCount
    | some e => e.resumePhase c.phase
    | none => c.phase
  { c with phase := phase, outSince := none, stallTimer := none, holdPending := none }

/-- R92, the slot's own part: the ready operation is taken back, the resume point recorded, the hold cause set. -/
def State.markHeld (s : State) (i : SlotId) (cause : HoldCause) : State :=
  let e := s.stepEntry i
  let s := s.takeBack i
  let s := s.modRun i fun c => c.heldAt e s.freeCount
  let s := (s.enter i .held).modRecord i fun r => { r with holdCause := some cause }
  if e = some .hold then { s with freeCount := s.freeCount + 1 } else s

/-- R92: entry to HELD from RUNNING. Cause HELD is raised toward the test station for PLAN_HOLD and THERMAL_STALL here;
R26 raises it for RESET, and MASTER_HOLD raises none. -/
def State.enterHeld (s : State) (i : SlotId) (cause : HoldCause) : State :=
  let s := s.removeAdmission i
  let s := s.markHeld i cause
  let s := s.returnTray i
  let s := s.releaseSeek i
  match cause with
  | .planHold | .thermalStall => s.raiseTo .a (.slot .held i)
  | .masterHold | .reset => s

def HoldPending.cause : HoldPending → HoldCause
  | .masterHold => .masterHold
  | .thermalStall => .thermalStall

/-- The hold that waits at the slot (R74). -/
def State.holdWaiting (s : State) (i : SlotId) : Option HoldPending := (s.record i).run.bind RunContext.holdPending

/-! ## Steps (R77 to R88) -/

/-- R77: the beginning of a step: index, start time, credit, retry flag, out-of-band since, a SWEEP's cursor, the band. -/
def State.openStep (s : State) (i : SlotId) (k : Nat) : State :=
  let s := s.modRun i fun c =>
    { c with step := k, stepStart := s.now, credit := 0, retry := false, outSince := none, stallTimer := none
             band := .none }
  let s := match s.stepEntry i with
    | some e => s.modRun i fun c =>
        { c with phase := if e.timed then e.firstPhase else c.phase
                 cursor := if e.kind = StepKind.sweep then 0 else c.cursor }
    | none => s
  s.evaluateBand i true

/-- R77, actions 1 to 4 of a step's end: the log entry, the claim, seek load and queue entries, the stall timing, and a
pending THERMAL_STALL dropped. -/
def State.closeStep (s : State) (i : SlotId) : State :=
  let s := s.logStep i .done
  let s := s.returnTray i
  let s := s.releaseSeek i
  let s := s.removeAdmission i
  s.modRun i fun c => { c with outSince := none, stallTimer := none
                               holdPending := if c.holdPending = some .thermalStall then none else c.holdPending }

/-- The first action of a timed step (R79, R80, R82, R84), and what RESUME continues such a step with (R93). -/
def State.firstAction (s : State) (i : SlotId) : State :=
  match s.stepEntry i with
  | some (.soak ..) => s.setPhase i .waitBand
  | some (.sweep w) => if w.quiet then (s.setPhase i .waitGroup).requestClaim i .quiet else s.proceedSweep i
  | some (.seekstorm ..) => (s.setPhase i .waitGroup).requestClaim i .storm
  | some (.powerCycle _) => (s.setPhase i .issue).offer i .sq .standby Config.standbyTimeout
  | _ => s

/-- R86: a NOTIFY step's effect. -/
def State.notifyStep (s : State) (i : SlotId) (code : Byte) : State :=
  (s.modRecord i fun r => { r with notifyCode := some code }).raiseTo .a (.slot .notify i)

/-- R86: a HOLD step takes the slot to HELD; its log entry has outcome HELD_EXIT. -/
def State.holdStep (s : State) (i : SlotId) : State := (s.logStep i .heldExit).enterHeld i .planHold

/-- R88: an END step: log entry, use count, run context, and the slot handed to the SM with the plan number. -/
def State.endStep (s : State) (i : SlotId) : State :=
  let s := s.closeStep i
  match (s.record i).run with
  | none => s
  | some c =>
    let s := s.releasePlan c.plan
    let s := s.modRecord i fun r => { r with run := none }
    let s := s.modSm i fun m => { m with carriedPlan := some c.plan }
    s.powerDown i .grade

/-- The counter of the REPEAT at index `k` (R87). -/
def RunContext.counter (c : RunContext) (k : Nat) : Nat := c.repeats[k]?.getD 0

def State.setCounter (s : State) (i : SlotId) (k v : Nat) : State :=
  s.modRun i fun c => { c with repeats := c.repeats.setIfInBounds k v }

/-- R87: the step that follows the REPEAT at `k`, and its counter's new value. -/
def repeatNext (k target count counter : Nat) : Nat × Nat :=
  if counter < count then (target, counter + 1) else (k + 1, 0)

/-- R77: step `k` begins. NOTIFY and REPEAT steps end in the same event and the chain goes on, one unit of fuel each; a
pending MASTER_HOLD takes the slot to HELD before the first action of a timed step. -/
def State.beginStep : Nat → SlotId → Nat → State → State
  | 0, _, _, s => s
  | fuel + 1, i, k, s =>
    let s := s.openStep i k
    match s.stepEntry i with
    | some (.notify code) => beginStep fuel i (k + 1) ((s.notifyStep i code).closeStep i)
    | some (.repeat_ t n) =>
      let next := repeatNext k t n (((s.record i).run.map fun c => c.counter k).getD 0)
      beginStep fuel i next.1 ((s.setCounter i k next.2).closeStep i)
    | some .hold => s.holdStep i
    | some .end_ => s.endStep i
    | some _ => if s.holdWaiting i = some .masterHold then s.enterHeld i .masterHold else s.firstAction i
    | none => s

/-- More steps than a chain of zero-time steps can take in one event: at most 31 REPEAT entries of at most 256 passes
each, over at most 32 entries (R71, R87, log entry 33). -/
def chainFuel : Nat := 2 ^ 256

/-- Step `k` of the slot's plan begins (R77). -/
def State.runStep (s : State) (i : SlotId) (k : Nat) : State := State.beginStep chainFuel i k s

/-- R77: the step ends and the next begins. -/
def State.endOfStep (s : State) (i : SlotId) : State :=
  match (s.record i).run with
  | some c => (s.closeStep i).runStep i (c.step + 1)
  | none => s

/-- R74, R77: a run context is created at step 0 of plan `p`, the slot moves to RUNNING, and step 0 begins. The use count
is the caller's. -/
def State.startRun (s : State) (i : SlotId) (p : PlanId) : State :=
  let s := s.modRecord i fun r => { r with run := some { plan := p, phase := .issue, stepStart := s.now } }
  let s := s.enter i .running
  let s := if (s.dpe i).patrolTimer.isNone then s.startPatrol i else s
  s.runStep i 0

/-- R81: a segment's completion that R53 has passed to the SQ. -/
def State.segmentDone (s : State) (i : SlotId) (start count : Nat) (c : Completion) : State :=
  let s := s.accountSegment i start count c
  let s := s.modRun i fun x => { x with cursor := x.cursor + count, retry := false }
  match (s.record i).run with
  | none => s
  | some x =>
    if (s.record i).capacity ≤ x.cursor then s.endOfStep i
    else
      match x.holdPending with
      | some h => s.enterHeld i h.cause
      | none => s.proceedSweep i

/-- R83: a storm's completion that R53 has passed to the SQ. -/
def State.stormDone (s : State) (i : SlotId) (c : Completion) : State :=
  let s := s.accountStorm i c
  match (s.record i).run, s.stepEntry i with
  | some x, some (.seekstorm d _ _ _) =>
    if d * 1000 ≤ x.credit then s.endOfStep i
    else
      match x.holdPending with
      | some h => s.enterHeld i h.cause
      | none => s.proceedStorm i
  | _, _ => s

/-- R84: the STANDBY of a POWER_CYCLE step has ended: the power is cut, the step enters OFF, and a hold that waits is
taken (R91). -/
def State.standbyDone (s : State) (i : SlotId) : State :=
  let s := (s.setPhase i .off).cutPower i
  match s.holdWaiting i with
  | some h => s.enterHeld i h.cause
  | none => s

/-- R55, R81: a segment's timeout, after its port reset: a first one sets the retry flag and offers the segment again
(or takes a hold that waits), a second is fault OP_TIMEOUT. -/
def State.segmentTimeout (s : State) (i : SlotId) : State :=
  match (s.record i).run with
  | none => s
  | some c =>
    if c.retry then s.takeFault i .opTimeout
    else
      let s := s.modRun i fun c => { c with retry := true }
      match c.holdPending with
      | some h => s.enterHeld i h.cause
      | none => s.proceedSweep i

/-! ## Identification (R14, R58) -/

/-- R58, check 4: another slot's record holds an identity with this serial. -/
def State.serialElsewhere (s : State) (i : SlotId) (serial : Chars 20) : Bool :=
  allSlots.any fun j => j != i &&
    match (s.record j).identity with
    | some d => d.serial == serial
    | none => false

/-- R58: the four checks in order; the first that fails gives its fault. -/
def State.identityFault (s : State) (i : SlotId) (d : Identity) : Option FaultCause :=
  let expected := (s.classEntry i).capacity
  if d.capacity.toNat < Config.minCapacity then some .badCapacity
  else if expected ≠ 0 ∧ expected ≠ d.capacity.toNat then some .classMismatch
  else if ((s.record i).identity.map fun x => x.serial != d.serial).getD false then some .swapped
  else if s.serialElsewhere i d.serial then some .duplicateSerial
  else none

/-- R14: a slot in IDENTIFYING stores the identity and moves to RUNNING with its start-on-ready plan, or to READY. The SM's
IDENTIFY is of no use in another state (log entry 30). -/
def State.identified (s : State) (i : SlotId) (d : Identity) : State :=
  if (s.record i).state ≠ .identifying then s
  else
    let s := s.modRecord i fun r => { r with identity := some d }
    match (s.record i).startPlan with
    | some p => (s.modRecord i fun r => { r with startPlan := none }).startRun i p
    | none => (s.enter i .ready).startPatrol i

/-- R85: a POWER_CYCLE re-identify that passed: the identity is stored and the step ends. -/
def State.reidentified (s : State) (i : SlotId) (d : Identity) : State :=
  (s.modRecord i fun r => { r with identity := some d }).endOfStep i

end Sys2Proof.Machine
end

