-- ==== Sys2Proof/Machine/PortEvents.lean ====
section
/-! DEFINITION. The events of the drive lanes (chapter 3): ready reports, completions, timeouts, link-up after a port reset,
the port reset timer and the patrol timer. -/

namespace Sys2Proof.Machine

/-- The outcome of an event: its state, after the notice test that ends every event (R170). -/
def event (s : State) : Host.Outcome State Fault Refusal := .next s.endEvent

/-! ## DRIVE_READY_REPORT (R49, R40, R41) -/

/-- R49: the DPE's part. In STARTING the report sets the ready flag and the port becomes IDLE, an opening; in RESETTING it
sets the flag. Patrol becomes active with the flag in a POWER_CYCLE step (R60). -/
def State.portReady (s : State) (i : SlotId) : State :=
  match (s.dpe i).port with
  | .starting => ((s.modDpe i fun e => { e with ready := true, port := .idle }).startPatrol i).openPort i
  | .resetting =>
    if (s.dpe i).ready then s else (s.modDpe i fun e => { e with ready := true }).startPatrol i
  | _ => s

/-- R13, R85: the report passed to the requester: the SM in SPINNING, the SQ for a POWER_CYCLE step in SURGE. -/
def State.passReady (s : State) (i : SlotId) : State :=
  match (s.record i).state with
  | .spinning => (s.enter i .identifying).offer i .sm .identify Config.identifyTimeout
  | .running =>
    if ((s.record i).run.map RunContext.phase) = some .surge then
      (s.setPhase i .reidentify).offer i .sq .identify Config.identifyTimeout
    else s
  | _ => s

/-- R40, R41: the PAU's part: the surge ends, and, if the ready timer runs, it stops and the report is passed on. -/
def State.pauReady (s : State) (i : SlotId) : State :=
  let waiting := (s.slot i).pau.readyTimer.isSome
  let s := s.endSurge i
  if waiting then (s.modPau i fun t => { t with readyTimer := none }).passReady i else s

/-- R49: a ready report; one cannot be received while the lane is down (log entry 11). -/
def State.readyReport (s : State) (i : SlotId) : State :=
  if (s.dpe i).port = .off then s else (s.portReady i).pauReady i

/-- DRIVE_READY_REPORT. -/
def execDriveReadyReport (i : SlotId) (s : State) : Host.Outcome State Fault Refusal := event (s.readyReport i)

/-! ## DRIVE_COMPLETION (R52, R53, R62, R65) -/

def CompletionStatus.finished : CompletionStatus → Bool
  | .good | .media => true
  | .fault | .aborted => false

/-- R63: a patrol miss; the third in a row is fault UNRESPONSIVE, else a timed-out poll is followed by a port reset. -/
def State.patrolMiss (s : State) (i : SlotId) (timedOut : Bool) : State :=
  let s := s.modDpe i fun e => { e with misses := e.misses + 1 }
  if Config.missLimit ≤ (s.dpe i).misses then s.takeFault i .unresponsive
  else if timedOut then s.resetPort i
  else s

def State.setTemperature (s : State) (i : SlotId) (t : Int) : State :=
  s.modRecord i fun r => { r with temperature := some (clampTemperature t) }

/-- R62, step 4, R118: the temperature is hot and the step in progress is a SWEEP. -/
def State.hotSweep (s : State) (i : SlotId) (t : Int) : Bool :=
  ((s.stepEntry i).map StepEntry.kind) == some .sweep && decide (s.timing.hot ≤ clampTemperature t)

/-- R62, steps 3 to 5. -/
def State.pollTaken (s : State) (i : SlotId) (t : Int) : State :=
  let s := s.setTemperature i t
  let s := s.modDpe i fun e => { e with misses := 0 }
  let s := if s.hotSweep i t then s.accountHot i else s
  s.temperatureToSq i

/-- R62: a patrol poll's completion. -/
def State.patrolResult (s : State) (i : SlotId) (c : Completion) : State :=
  if c.status = .fault ∨ c.faultCodes ≠ [] then s.takeFault i .driveFault
  else if c.status = .aborted then s.patrolMiss i false
  else s.pollTaken i c.temperature

/-- R65: a direct operation's completion; a HEALTH_POLL also replaces the last temperature, whatever its status (log entry
29). -/
def State.directDone (s : State) (i : SlotId) (d : DirectOp) (c : Completion) : State :=
  let s := if d.kind = .healthPoll then s.setTemperature i c.temperature else s
  s.replyDirect i (if d.clamped then .clamped else .ok) (d.words ++ completionWords d.kind c)

/-- R53, R58: the outcome of an IDENTIFY of the SM or the SQ; `pass` stores a checked identity and goes on. -/
def State.identifyResult (s : State) (i : SlotId) (c : Completion) (pass : State → State) : State :=
  if CompletionStatus.finished c.status then
    match s.identityFault i c.identity with
    | some f => s.takeFault i f
    | none => pass s
  else s.takeFault i .driveFault

/-- R53, R55: a segment's completion. -/
def State.segmentResult (s : State) (i : SlotId) (start count : Nat) (c : Completion) : State :=
  let s := s.modRun i fun x => { x with retry := false }
  if CompletionStatus.finished c.status ∧ c.sectorsDone.toNat = count then s.segmentDone i start count c
  else s.takeFault i .driveFault

/-- R53: a completion judged by requester and kind, and handed over. -/
def State.handOver (s : State) (i : SlotId) (f : InFlight) (c : Completion) : State :=
  match f.requester, f.op with
  | .patrol, _ => s.patrolResult i c
  | .direct d, _ => s.directDone i d c
  | .sm, .identify => s.identifyResult i c fun s => s.identified i c.identity
  | .sm, .standby => s.endPowerDown i
  | .sm, _ => s
  | .sq, .identify => s.identifyResult i c fun s => s.reidentified i c.identity
  | .sq, .standby => s.standbyDone i
  | .sq, .readVerify a n => s.segmentResult i a n c
  | .sq, .writeVerify a n _ => s.segmentResult i a n c
  | .sq, .seekStorm .. => if CompletionStatus.finished c.status then s.stormDone i c else s.takeFault i .driveFault
  | .sq, .healthPoll => s

/-- The register is emptied and the port returns to IDLE (R52, R54). -/
def State.endOperation (s : State) (i : SlotId) : State := s.modDpe i fun e => { e with inFlight := none, port := .idle }

/-- R52: a completion whose tag matches ends the operation and is handed over, and the port is at an opening; any other is
discarded. -/
def State.complete (s : State) (i : SlotId) (c : Completion) : State :=
  match (s.dpe i).inFlight with
  | none => s
  | some f => if f.tag = c.tag then ((s.endOperation i).handOver i f c).openPort i else s

/-- DRIVE_COMPLETION. -/
def execDriveCompletion (i : SlotId) (c : Completion) (s : State) : Host.Outcome State Fault Refusal :=
  event (s.complete i c)

/-! ## OPERATION_TIMEOUT (R54) -/

/-- R54: what the DPE does at an operation's timeout, by kind and requester. -/
def State.timeoutAction (s : State) (i : SlotId) (f : InFlight) : State :=
  match f.requester, f.op with
  | .patrol, _ => s.patrolMiss i true
  | .direct d, _ => (s.resetPort i).replyDirect i .timeout d.words
  | .sm, .standby => s.endPowerDown i
  | .sq, .standby => s.standbyDone i
  | .sq, .readVerify .. => (s.resetPort i).segmentTimeout i
  | .sq, .writeVerify .. => (s.resetPort i).segmentTimeout i
  | .sm, _ => s.takeFault i .opTimeout
  | .sq, _ => s.takeFault i .opTimeout

/-- R54: the operation in flight has reached its deadline. -/
def State.timeOut (s : State) (i : SlotId) : State :=
  match (s.dpe i).inFlight with
  | none => s
  | some f => if reached s.now f.deadline then (s.endOperation i).timeoutAction i f else s

/-- OPERATION_TIMEOUT. -/
def execOperationTimeout (i : SlotId) (s : State) : Host.Outcome State Fault Refusal := event (s.timeOut i)

/-! ## PORT_LINK_UP, PORT_RESET_TIMEOUT (R56) -/

/-- R56: link-up ends a port reset. -/
def State.portLinkUp (s : State) (i : SlotId) : State :=
  if (s.dpe i).port = .resetting then
    (s.modDpe i fun e => { e with resetTimer := none, port := if e.ready then .idle else .starting }).openPort i
  else s

/-- PORT_LINK_UP. -/
def execPortLinkUp (i : SlotId) (s : State) : Host.Outcome State Fault Refusal := event (s.portLinkUp i)

/-- A timer that runs has reached its deadline. A timer's event before that changes nothing (log entry 5). -/
def due (now : RackTime) : Option RackTime → Bool
  | some t => reached now t
  | none => false

/-- R56: the reset timer expires during a port reset: fault PORT_DEAD. -/
def State.portResetExpiry (s : State) (i : SlotId) : State :=
  if (s.dpe i).port = .resetting ∧ due s.now (s.dpe i).resetTimer then
    (s.modDpe i fun e => { e with resetTimer := none }).takeFault i .portDead
  else s

/-- PORT_RESET_TIMEOUT. -/
def execPortResetTimeout (i : SlotId) (s : State) : Host.Outcome State Fault Refusal := event (s.portResetExpiry i)

/-! ## PATROL_TIMER_EXPIRY (R60, R61) -/

/-- R60, R61: the timer restarts and the poll that falls due becomes the one pending poll, issued at once if the port is
IDLE. A poll in flight does not stand for it (log entry 15). -/
def State.patrolExpiry (s : State) (i : SlotId) : State :=
  if due s.now (s.dpe i).patrolTimer then
    (s.modDpe i fun e => { e with patrolTimer := some (afterSec s.now (s.patrolLength i)), pollPending := true }).openPort i
  else s

/-- PATROL_TIMER_EXPIRY. -/
def execPatrolTimerExpiry (i : SlotId) (s : State) : Host.Outcome State Fault Refusal := event (s.patrolExpiry i)

end Sys2Proof.Machine
end

