-- ==== Sys2Proof/Machine/SlotEvents.lean ====
section
/-! DEFINITION. The events of the slot signals and of the SM's timers (chapter 1): presence, insertion, removal, the declare
timeout and the unload timer. -/

namespace Sys2Proof.Machine

/-! ## PRESENCE_INPUT_CHANGE (R8) -/

/-- R8: a change of the raw input starts or restarts its debounce; a DISABLED slot's input is ignored (R6). -/
def State.presenceChange (s : State) (i : SlotId) (level : Presence) : State :=
  if (s.record i).state = .disabled ∨ (s.slot i).sm.raw = level then s
  else s.modSm i fun m => { m with raw := level, rawSince := s.now }

/-- PRESENCE_INPUT_CHANGE. -/
def execPresenceInputChange (i : SlotId) (level : Presence) (s : State) : Host.Outcome State Fault Refusal :=
  event (s.presenceChange i level)

/-! ## INSERTION_RECOGNISED (R8, R9) -/

/-- R8: the raw input has read `level` without interruption for `ms`, and the presence field does not yet say so. -/
def State.steady (s : State) (i : SlotId) (level : Presence) (ms : Nat) : Bool :=
  (s.record i).state != .disabled && (s.record i).presence != level && (s.slot i).sm.raw == level &&
    decide (ms ≤ age s.now (s.slot i).sm.rawSince)

/-- R9: a recognised insertion in EMPTY moves the slot to LOADED. -/
def State.insertion (s : State) (i : SlotId) : State :=
  if s.steady i .present Config.insertionDebounce then
    let s := s.modRecord i fun r => { r with presence := .present }
    if (s.record i).state = .empty then ((s.enter i .loaded).startDeclare i).raiseTo .b (.slot .present i) else s
  else s

/-- INSERTION_RECOGNISED. -/
def execInsertionRecognised (i : SlotId) (s : State) : Host.Outcome State Fault Refusal := event (s.insertion i)

/-! ## REMOVAL_RECOGNISED (R10) -/

/-- R10: what a recognised removal does before the slot becomes EMPTY, by the state at recognition. In DONE the lot is tested, and
LOT_COMPLETE recorded, before MISPICK: DEDUCED from the order of R155's own acts, against that in which the worked sequence
of chapter 8 tells them (log entry 16). -/
def State.removalAction (s : State) (i : SlotId) : State :=
  match (s.record i).state with
  | .unloading => s.pickDone i
  | .done => (s.mispick i).raiseSlot .mispick i
  | .disabled | .empty => s
  | .loaded | .spinWait | .spinning | .identifying | .ready | .running | .held | .poweringDown | .grading =>
    ((s.teardown i .aborted).cutPower i).raiseSlot .removed i

/-- R10: a removal recognised. -/
def State.removal (s : State) (i : SlotId) : State :=
  if s.steady i .absent Config.removalDebounce then (s.removalAction i).becomeEmpty i else s

/-- REMOVAL_RECOGNISED. -/
def execRemovalRecognised (i : SlotId) (s : State) : Host.Outcome State Fault Refusal := event (s.removal i)

/-! ## DECLARE_TIMEOUT (R12) -/

/-- R12: the declare timer expires in LOADED: the slot proceeds as if declared, with the class it holds or class 0. -/
def State.declareExpiry (s : State) (i : SlotId) : State :=
  if (s.record i).state = .loaded ∧ due s.now (s.slot i).sm.declareTimer then
    (s.modRecord i fun r => { r with cls := some (r.cls.getD 0) }).enterSpinWait i
  else s

/-- DECLARE_TIMEOUT. -/
def execDeclareTimeout (i : SlotId) (s : State) : Host.Outcome State Fault Refusal := event (s.declareExpiry i)

/-! ## UNLOAD_OVERDUE (R23) -/

/-- R23: the unload timer expires: UNLOAD_OVERDUE toward the line controller, the state unchanged. -/
def State.unloadExpiry (s : State) (i : SlotId) : State :=
  if (s.record i).state = .unloading ∧ due s.now (s.slot i).sm.unloadTimer then
    (s.modSm i fun m => { m with unloadTimer := none }).raiseTo .b (.slot .unloadOverdue i)
  else s

/-- UNLOAD_OVERDUE. -/
def execUnloadOverdue (i : SlotId) (s : State) : Host.Outcome State Fault Refusal := event (s.unloadExpiry i)

end Sys2Proof.Machine
end

