-- ==== Sys2Proof/Machine/PowerEvents.lean ====
section
/-! DEFINITION. The events of the PAU (chapter 2): current conversions and trips, the surge and ready timers, the head-wait
timer and the ageing of window entries. -/

namespace Sys2Proof.Machine

/-! ## CURRENT_CONVERSION (R43, R44) -/

/-- R44: the slot is tripped: the switch opens, fault OVERCURRENT is reported, the head is tested. -/
def State.trip (s : State) (i : SlotId) : State := ((s.switchOff i).takeFault i .overcurrent).testHead

/-- R44: the conversion is above the trip value of the slot's class while the switch is closed. -/
def State.trips (s : State) (i : SlotId) (current : Nat) : Bool :=
  (s.record i).powered && decide ((s.classEntry i).trip < current)

/-- R43: the conversion, clamped, is stored for every fitted slot, and compared with the trip value (R44). -/
def State.conversion (s : State) (i : SlotId) (reading : Int) : State :=
  if (s.record i).state = .disabled then s
  else
    let current := (clampInt 0 65535 reading).toNat
    let s := s.modRecord i fun r => { r with current := current }
    if s.trips i current then s.trip i else s

/-- CURRENT_CONVERSION. -/
def execCurrentConversion (i : SlotId) (reading : Int) (s : State) : Host.Outcome State Fault Refusal :=
  event (s.conversion i reading)

/-! ## SURGE_TIMER_EXPIRY (R40), READY_TIMEOUT (R41) -/

/-- R40: the surge timer expires. -/
def State.surgeExpiry (s : State) (i : SlotId) : State :=
  if due s.now (s.slot i).pau.surgeTimer then s.endSurge i else s

/-- SURGE_TIMER_EXPIRY. -/
def execSurgeTimerExpiry (i : SlotId) (s : State) : Host.Outcome State Fault Refusal := event (s.surgeExpiry i)

/-- R41: the ready timer expires first: fault NO_READY. -/
def State.readyExpiry (s : State) (i : SlotId) : State :=
  if due s.now (s.slot i).pau.readyTimer then
    (s.modPau i fun t => { t with readyTimer := none }).takeFault i .noReady
  else s

/-- READY_TIMEOUT. -/
def execReadyTimeout (i : SlotId) (s : State) : Host.Outcome State Fault Refusal := event (s.readyExpiry i)

/-! ## HEAD_WAIT_EXPIRY (R34), WINDOW_ENTRY_AGED (R39) -/

/-- R34: the head has waited 60 s: ADMISSION_STALLED toward the line controller, once for the head. -/
def State.headWaitExpiry (s : State) : State :=
  if due s.now s.headWait then { s with headWait := none }.raiseTo .b (.rack .admissionStalled) else s

/-- HEAD_WAIT_EXPIRY. -/
def execHeadWaitExpiry (s : State) : Host.Outcome State Fault Refusal := event s.headWaitExpiry

/-- R39: the oldest window entry has reached age tW: it is removed and the head tested. -/
def State.windowAged (s : State) : State :=
  match s.window with
  | [] => s
  | t :: rest => if s.line.window * 1000 ≤ age s.now t then { s with window := rest }.testHead else s

/-- WINDOW_ENTRY_AGED. -/
def execWindowEntryAged (s : State) : Host.Outcome State Fault Refusal := event s.windowAged

end Sys2Proof.Machine
end

