-- ==== Sys2Proof/Machine/StepEvents.lean ====
section
/-! DEFINITION. The events of the SQ's clocks (chapter 4) and of the grading engine (chapter 7). -/

namespace Sys2Proof.Machine

/-- R79: a SOAK step's credit has reached its duration while it accrues: the step ends. -/
def State.soakReached (s : State) (i : SlotId) : State :=
  match (s.record i).run, s.stepEntry i with
  | some c, some (.soak d _ _) => if s.accrues i ∧ d * 1000 ≤ c.credit then s.endOfStep i else s
  | _, _ => s

/-- SOAK_CREDIT_REACHED. -/
def execSoakCreditReached (i : SlotId) (s : State) : Host.Outcome State Fault Refusal := event (s.soakReached i)

/-- R84: an off phase has counted its off time: a SPINUP entry is filed, and the step enters WAIT_SPINUP. -/
def State.offReached (s : State) (i : SlotId) : State :=
  match (s.record i).run, s.stepEntry i with
  | some c, some (.powerCycle t) =>
    if s.accrues i ∧ t * 1000 ≤ c.credit then (s.setPhase i .waitSpinup).fileAdmission i .spinup else s
  | _, _ => s

/-- OFF_TIME_REACHED. -/
def execOffTimeReached (i : SlotId) (s : State) : Host.Outcome State Fault Refusal := event (s.offReached i)

/-- R90: the stall timer expires: HELD at once with THERMAL_STALL, or, with an operation of the SQ in flight, the hold
waits for its end. -/
def State.stallExpiry (s : State) (i : SlotId) : State :=
  if (s.record i).state = .running ∧ due s.now ((s.record i).run.bind RunContext.stallTimer) then
    if s.sqInFlight i then s.modRun i fun c => { c with stallTimer := none, holdPending := some .thermalStall }
    else s.enterHeld i .thermalStall
  else s

/-- STALL_TIMER_EXPIRY. -/
def execStallTimerExpiry (i : SlotId) (s : State) : Host.Outcome State Fault Refusal := event (s.stallExpiry i)

/-- R20, R128: the verdict handed to the SM; a completion for a slot no longer in GRADING is dropped. -/
def State.handVerdict (s : State) (g : Grading) : State :=
  if g.discard ∨ (s.record g.slot).state ≠ .grading then s else s.enterDone g.slot (g.verdict s.grade s.now)

/-- R128: the engine completes, goes IDLE, and the take conditions are tested at once. -/
def State.gradingDone (s : State) : State :=
  match s.engine with
  | none => s
  | some g => { s.handVerdict g with engine := none }.tryTake

/-- GRADING_COMPLETION. -/
def execGradingCompletion (s : State) : Host.Outcome State Fault Refusal := event s.gradingDone

end Sys2Proof.Machine
end

