-- ==== Sys2Proof/Machine/Reads.lean ====
section
/-! DEFINITION. What a request's owner hands back, the checks of R7, the records of the 14 collections (R184, R193), and READ
with the causes it clears (R167, R168, R183 to R186). -/

namespace Sys2Proof.Machine

/-! ## Answers (R180, R181) -/

/-- What the owner of a request decides: a status, the address-valid indication, and the reply body. -/
structure Answer where
  status       : Status
  addressValid : Bool := true
  body         : List Word := []
deriving DecidableEq, Repr

/-- The done indication of a status (R181). -/
def Status.done : Status → Bool
  | .ok | .clamped | .timeout => true
  | .malformed | .notThisPort | .noSuch | .wrongState | .busy | .inUse | .inLot | .noRoom | .badPlan | .badTable => false

/-- A request taken: the state it leaves, and the answer; none for an accepted DIRECT_OP or RACK_RESET (R179). -/
structure Taken where
  state  : State
  answer : Option Answer
deriving DecidableEq, Repr

/-- A refusal: the state is unchanged, the reply body empty (R3, R192). -/
def State.refuse (s : State) (st : Status) (addressValid : Bool := true) : Taken :=
  { state := s, answer := some { status := st, addressValid := addressValid } }

/-- MALFORMED: the address-valid indication is clear (R181). -/
def State.malformed (s : State) : Taken := s.refuse .malformed false

/-- NO_SUCH for a number outside its collection's numbering (R181). -/
def State.noSuch (s : State) : Taken := s.refuse .noSuch false

/-- An accepted request: OK with a reply body. -/
def State.ok (s : State) (body : List Word := []) : Taken := { state := s, answer := some { status := .ok, body := body } }

/-- An accepted request: CLAMPED if a value was clamped, else OK. -/
def State.taken (s : State) (clamped : Bool) (body : List Word) : Taken :=
  { state := s, answer := some { status := if clamped then .clamped else .ok, body := body } }

/-- R7: the slot that a word names, or the refusal: NO_SUCH, address-valid clear for a number above 23 and set for a
DISABLED slot. -/
def State.checkSlot (s : State) (w : Word) : Except Answer SlotId :=
  if h : small w < 24 then
    let i : SlotId := ⟨small w, h⟩
    if (s.record i).state = .disabled then .error { status := .noSuch } else .ok i
  else .error { status := .noSuch, addressValid := false }

/-- A request on one slot: the checks of R7 come first. -/
def State.onSlot (s : State) (w : Word) (act : SlotId → Taken) : Taken :=
  match s.checkSlot w with
  | .ok i => act i
  | .error a => { state := s, answer := some a }

/-- A number 0 to 7 of a plan, a class or a lot; none above. -/
def number8 (w : Word) : Option (Fin 8) := if h : small w < 8 then some ⟨small w, h⟩ else none

/-! ## Slot records (R193) -/

/-- The bits of a slot cause set: bit code − 1 for each pending cause. -/
def causeSetWord (set : List SlotCause) : Word :=
  word (SlotCause.all.map fun c => place (flag (set.contains c)) (c.code - 1) 1)

def Placement.code : Placement → Nat
  | .none => 0
  | .pending => 1
  | .lot _ => 2

/-- The lot that a placement names. DESIGN CHOICE (log entry 40): R161 and R192 do not say what the lot byte of the REQUEUE reply
reads when the placement made is PENDING; here 0, as R193 has the placement lot of a slot record read while it is unused. -/
def Placement.lotNumber : Placement → Nat
  | .lot n => n.val
  | _ => 0

/-- Word 0 of a slot record. -/
def Record.word0 (r : Record) : Word :=
  word [place r.state.code 28 4, place r.custody.code 26 2, place (flag (r.presence == .present)) 25 1,
    place (optCode (r.cls.map Fin.val)) 21 4, place r.phase.code 19 2, place (optCode (r.purpose.map Purpose.code)) 17 2,
    place (optCode (r.holdCause.map HoldCause.code)) 14 3, place r.placement.code 12 2, place r.placement.lotNumber 9 3,
    place (optCode (r.startPlan.map Fin.val)) 5 4, place (flag r.identity.isSome) 4 1,
    place (flag r.temperature.isSome) 3 1, place (flag r.run.isSome) 2 1, place (flag r.verdict.isSome) 1 1,
    place (flag r.notifyCode.isSome) 0 1]

/-- Words 21 to 23 of a slot record: the verdict. -/
def verdictWords : Option Verdict → List Word
  | none => [0, 0, 0]
  | some v =>
    [word [place v.kind.code 30 2, place v.bin.code 27 3, place (flag v.flags.incomplete) 26 1,
        place (flag v.flags.demoted) 25 1, place (flag v.flags.hardLimit) 24 1, place (flag v.flags.seekLimit) 23 1,
        place (optCode (v.faultCause.map FaultCause.code)) 19 4, place (optCode (v.plan.map Fin.val)) 15 4,
        place (flag v.score.isSome) 14 1, place (flag v.revision.isSome) 13 1],
      word [place (v.score.getD 0) 16 16, place (v.revision.getD 0).toNat 0 16], v.at_]

/-- The tray claim held field: NONE, QUIET, STORM (R191). -/
def claimCode : Option ClaimKind → Nat
  | none => 0
  | some k => k.code + 1

/-- Words 24 to 37 of a slot record: the run context. -/
def runWords (claim : Option ClaimKind) (seek : Bool) : Option RunContext → List Word
  | none => List.replicate 14 0
  | some c =>
    [word [place c.plan.val 29 3, place c.step 24 5, place c.phase.code 20 4, place c.band.code 18 2,
        place (claimCode claim) 16 2, place (flag seek) 15 1, place (flag c.retry) 14 1,
        place (optCode (c.holdPending.map HoldPending.code)) 12 2, place (flag c.outSince.isSome) 11 1],
      c.stepStart, BitVec.ofNat 32 c.credit, c.outSince.getD 0] ++ words48 c.cursor ++
      packBytes (c.repeats.toList.map (BitVec.ofNat 8))

/-- A slot record as the master of port `p` reads it: 39 words. -/
def State.slotWords (s : State) (p : Port) (i : SlotId) : List Word :=
  let r := s.record i
  [r.word0, word [place r.current 16 16, place ((r.temperature.map unsigned8).getD 0) 8 8,
      place (r.notifyCode.getD 0).toNat 0 8]] ++
    ((r.identity.map identityWords).getD (List.replicate 19 0)) ++ verdictWords r.verdict ++
    runWords (s.claimHeld i) (s.seekHeld i) r.run ++ [causeSetWord (s.att p).slotSets[i]]

/-! ## Test records, step logs, plans -/

def Zone.words (z : Zone) : List Word :=
  words48 z.covered ++ [word [place z.hard 16 16, place z.soft 0 16], word [place z.slow 24 8, place (flag z.swept) 0 1]]

/-- A test record: 66 words. -/
def TestRecord.words (t : TestRecord) : List Word :=
  t.zones.toList.flatMap Zone.words ++
    [BitVec.ofNat 32 t.seeksDone, word [place t.seekErrors 16 16, place t.thermal 0 8]]

def LogEntry.words (e : LogEntry) : List Word :=
  [word [place e.step 27 5, place e.kind.code 23 4, place e.outcome.code 21 2], BitVec.ofNat 32 e.credit, e.at_]

/-- A step log: 193 words. -/
def TestRecord.logWords (t : TestRecord) : List Word :=
  word [place (flag t.wrapped) 31 1, place t.log.length 0 7] :: fitWords 192 (t.log.flatMap LogEntry.words)

/-- A plan: 97 words. -/
def Plan.words (q : Plan) : List Word :=
  word [place (flag !q.entries.isEmpty) 31 1, place q.entries.length 16 6, place q.useCount 0 5] ::
    fitWords 96 (q.entries.flatMap fun e => stepList e.words)

/-! ## Queues, trays, bins and lots -/

def State.admissionEntryWords (s : State) (e : AdmissionEntry) : List Word :=
  [word [place e.slot.val 27 5, place e.kind.code 26 1, place (s.record e.slot).state.code 22 4], e.arrival]

/-- The admission queue and window history: 58 words. -/
def State.admissionWords (s : State) : List Word :=
  [word [place s.admission.length 24 8, place s.window.length 16 8], if s.admission.isEmpty then 0 else s.headSince] ++
    fitWords 48 (s.admission.flatMap s.admissionEntryWords) ++ fitWords 8 s.window

def TrayEntry.words (e : TrayEntry) : List Word := [word [place e.slot.val 27 5, place e.kind.code 26 1], e.arrival]

/-- The byte of each holder, in ascending slot order. -/
def Tray.holderBytes (t : Tray) : List Byte :=
  allSlots.filterMap fun i => (t.claimOf i).map fun k => BitVec.ofNat 8 (i.val * 8 + k.code)

/-- A tray: 19 words. DEDUCED (log entry 38): R193 gives the holders one byte each in ascending slot order and no byte order;
the first is in bits 31 to 24 of word 1, as the first byte is wherever R193 says. -/
def Tray.words (t : Tray) : List Word :=
  word [place t.quietCount 28 4, place t.stormCount 24 4, place t.holders.length 20 4, place t.queue.length 16 4] ::
    fitWords 2 (packBytes t.holderBytes) ++ fitWords 16 (t.queue.flatMap TrayEntry.words)

/-- Words 0 to 2 of the grading queue record: the engine's fields read 0 while it is IDLE. -/
def engineWords (queued : Nat) : Option Grading → List Word
  | none => [place queued 16 5, 0, 0]
  | some g =>
    [word [place 1 31 1, place (flag g.discard) 30 1, place g.slot.val 24 5, place g.plan.val 21 3, place queued 16 5],
      place g.revision.toNat 0 16, g.taken]

def GradingEntry.words (e : GradingEntry) : List Word := [word [place e.slot.val 27 5, place e.plan.val 24 3], e.arrival]

/-- The grading queue: 51 words. -/
def State.gradingWords (s : State) : List Word :=
  engineWords s.gradingQueue.length s.engine ++ fitWords 48 (s.gradingQueue.flatMap GradingEntry.words)

/-- A bin pending queue: 7 words. -/
def State.binWords (s : State) (b : Fin 7) : List Word :=
  let q := s.binQueues[b]
  word [place b.val 29 3, place q.length 0 5] :: fitWords 6 (packBytes (q.map fun i => BitVec.ofNat 8 i.val))

/-- R162: the position of a lot in the opening order; absent for a FREE lot. DESIGN CHOICE (log entry 39): no rule says whether
positions count from 0 or from 1; here the first is 0, so that it reads as 1 (R191). -/
def State.openingPosition (s : State) (n : LotId) : Option Nat := s.opening.findIdx? fun x => x == n

def Lot.countIn (l : Lot) (st : EntryState) : Nat := (l.entries.filter fun e => e.state == st).length

/-- A lot header: 7 words. -/
def State.lotWords (s : State) (n : LotId) : List Word :=
  let l := s.lots[n]
  [word [place l.state.code 29 3, place l.bin.code 26 3, place l.capacity 20 6, place l.entries.length 14 6,
      place (optCode (s.openingPosition n)) 10 4], l.opened] ++ packBytes l.label.toList ++
    [word [place (l.countIn .unpicked) 24 8, place (l.countIn .picking) 16 8, place (l.countIn .picked) 8 8,
      place (l.countIn .lost) 0 8]]

/-- A lot entry: 6 words. -/
def LotEntry.words (e : LotEntry) : List Word :=
  packBytes e.serial.toList ++
    [word [place e.slot.val 27 5, place e.kind.code 25 2, place e.state.code 23 2, place (flag e.score.isSome) 22 1,
      place (e.score.getD 0) 0 16]]

/-! ## Attention summary and rack status (R174, R186) -/

/-- The bit of a rack cause in the rack cause set word. -/
def RackCause.setBit : RackCause → Nat
  | .overBudget => 0
  | .admissionStalled => 1
  | .tableUnset => 2
  | .linkError => 3
  | .lotFull n => 16 + n.val
  | .lotComplete n => 24 + n.val

def rackSetWord (set : List RackCause) : Word := word (set.map fun c => place 1 c.setBit 1)

/-- The summary codes of eight slots in one word, the first in bits 31 to 28 (R166). -/
def Attention.codesWord (a : Attention) (slots : List SlotId) : Word :=
  word (slots.map fun i => place (summaryCode a.slotSets[i]) (28 - 4 * (i.val % 8)) 4)

/-- The attention summary: 5 words. -/
def Attention.words (a : Attention) : List Word :=
  [a.codesWord (allSlots.take 8), a.codesWord ((allSlots.drop 8).take 8), a.codesWord (allSlots.drop 16),
    rackSetWord a.rackSet, word [place a.mask.toNat 0 13, place (flag (a.notice == .sent)) 16 1]]

/-- The rack status as the master of port `p` reads it: 6 words. -/
def State.statusWords (s : State) (p : Port) : List Word :=
  [s.now, word [place s.line.budget 16 16, place s.load 0 16],
    word [place s.line.window 24 8, place s.line.windowCount 20 4, place s.line.declareTime 10 10,
      place s.line.unloadTime 0 10],
    word [place s.timing.period 22 10, place (unsigned8 s.timing.hot) 14 8, place s.timing.poll 8 6,
      place (flag (s.linkIsUp .a)) 7 1, place (flag (s.linkIsUp .b)) 6 1, place s.origin.code 4 2],
    rackSetWord (s.att p).rackSet, Config.partRevision]

/-! ## READ (R183 to R185) -/

/-- The 14 collections, in the order of their codes (R184). -/
inductive Collection
  | slotRecord
  | testRecord
  | stepLog
  | plan
  | classTable
  | gradeTable
  | admission
  | tray
  | grading
  | binQueue
  | lotHeader
  | lotEntries
  | summary
  | rackStatus
deriving DecidableEq, Repr

def Collection.ofCode : Nat → Option Collection
  | 0 => some .slotRecord
  | 1 => some .testRecord
  | 2 => some .stepLog
  | 3 => some .plan
  | 4 => some .classTable
  | 5 => some .gradeTable
  | 6 => some .admission
  | 7 => some .tray
  | 8 => some .grading
  | 9 => some .binQueue
  | 10 => some .lotHeader
  | 11 => some .lotEntries
  | 12 => some .summary
  | 13 => some .rackStatus
  | _ => none

/-- The record length of a collection, in words (R193). -/
def Collection.width : Collection → Nat
  | .slotRecord => 39
  | .testRecord => 66
  | .stepLog => 193
  | .plan => 97
  | .classTable => 6
  | .gradeTable => 6
  | .admission => 58
  | .tray => 19
  | .grading => 51
  | .binQueue => 7
  | .lotHeader => 7
  | .lotEntries => 6
  | .summary => 5
  | .rackStatus => 6

/-- R183: the whole records that fit in a body of 256 words beside the count. -/
def Collection.fit (c : Collection) : Nat := 255 / c.width

/-- All records of a collection in index order, as the master of port `p` reads them. `lot` is the lot of lot entries. -/
def State.records (s : State) (p : Port) (lot : LotId) : Collection → List (List Word)
  | .slotRecord => allSlots.map (s.slotWords p)
  | .testRecord => allSlots.map fun i => (s.slot i).test.words
  | .stepLog => allSlots.map fun i => (s.slot i).test.logWords
  | .plan => s.plans.toList.map Plan.words
  | .classTable => s.classTable.toList.map ClassEntry.words
  | .gradeTable => [s.grade.words]
  | .admission => [s.admissionWords]
  | .tray => s.trays.toList.map Tray.words
  | .grading => [s.gradingWords]
  | .binQueue => (List.finRange 7).map s.binWords
  | .lotHeader => (List.finRange 8).map s.lotWords
  | .lotEntries => s.lots[lot].entries.map LotEntry.words
  | .summary => [(s.att p).words]
  | .rackStatus => [s.statusWords p]

/-- R183, step 3: the number of records returned. -/
def returned (asked left fit : Nat) : Nat := min asked (min left fit)

/-- R167, R168: the causes that a READ of `n` records from `index` clears for the reading master; with `n` = 0, none (log
entry 20). -/
def State.clearRead (s : State) (p : Port) (c : Collection) (index n : Nat) : State :=
  match c with
  | .slotRecord =>
    s.modAtt p fun a =>
      { a with slotSets := Vector.ofFn fun i : Fin 24 =>
          if index ≤ i.val ∧ i.val < index + n then [] else a.slotSets[i] }
  | .rackStatus => if n = 0 then s else s.modAtt p fun a => { a with rackSet := [] }
  | _ => s

/-- R183: an accepted READ of collection `c` from `index`. -/
def State.readFrom (s : State) (p : Port) (c : Collection) (lot : LotId) (index asked : Nat) : Taken :=
  let rs := (s.records p lot c).drop index
  let n := returned asked rs.length c.fit
  (s.clearRead p c index n).taken (n < asked) (BitVec.ofNat 32 n :: (rs.take n).flatten)

/-- READ (R183, R185). -/
def State.takeRead (s : State) (p : Port) (collection index count : Word) : Taken :=
  let asked := bits count 0 16
  match Collection.ofCode (small collection) with
  | none => s.malformed
  | some .lotEntries =>
    let position := bits index 0 8
    if h : bits index 8 8 < 8 ∧ position ≤ 59 then
      let lot : LotId := ⟨bits index 8 8, h.1⟩
      if s.lots[lot].entries.length ≤ position then s.refuse .noSuch else s.readFrom p .lotEntries lot position asked
    else s.noSuch
  | some c => if (s.records p 0 c).length ≤ small index then s.noSuch else s.readFrom p c 0 (small index) asked

end Sys2Proof.Machine
end

