-- ==== Sys2Proof/Machine/SlotRequests.lean ====
section
/-! DEFINITION. The requests of the SM, the PAU, the DPEs, the GE and the AU: DECLARE, SLOT_RESET, SET_LINE, SET_CLASS, DIRECT_OP,
SET_TIMING, SET_GRADE_TABLE and SET_MASK. -/

namespace Sys2Proof.Machine

/-! ## SM: DECLARE (R11), SLOT_RESET (R22) -/

/-- DECLARE (R11). -/
def State.takeDeclare (s : State) (slot cls : Word) : Taken :=
  s.onSlot slot fun i =>
    match number8 cls with
    | none => s.noSuch
    | some c =>
      if (s.record i).state = .loaded then
        ((s.modRecord i fun r => { r with cls := some c }).enterSpinWait i).ok
      else s.refuse .wrongState

/-- R22, step 4: what the record of a reset slot loses. -/
def Record.forget (r : Record) : Record :=
  { r with verdict := none, identity := none, temperature := none, notifyCode := none, purpose := none }

/-- R22, steps 1 to 5. -/
def State.resetToLoaded (s : State) (i : SlotId) : State :=
  let s := (s.teardown i .aborted).cutPower i
  let s := (s.leaveQueue i).clearTest i
  let s := (s.modRecord i Record.forget).modSm i fun m => { m with carriedPlan := none, carriedVerdict := none }
  (s.enter i .loaded).startDeclare i

/-- The placement is LOT. -/
def Record.inLot (r : Record) : Bool :=
  match r.placement with
  | .lot _ => true
  | _ => false

/-- SLOT_RESET (R22). -/
def State.takeSlotReset (s : State) (slot : Word) : Taken :=
  s.onSlot slot fun i =>
    let r := s.record i
    if r.state = .empty ∨ r.state = .unloading then s.refuse .wrongState
    else if r.inLot then s.refuse .inLot
    else (s.resetToLoaded i).ok

/-! ## PAU: SET_LINE (R29, R30), SET_CLASS (R28) -/

/-- Bit `k` of a presence word: a setting is carried. Bits that R192 does not name are ignored: DEDUCED (log entry 22). -/
def carried (present : Word) (k : Nat) : Bool := present.getLsbD k

/-- A setting after a request: the carried value clamped into its range, else the old one. -/
def newSetting (present : Word) (k lo hi old : Nat) (w : Word) : Nat :=
  if carried present k then clampNat lo hi w.toNat else old

/-- A carried value lies outside its range. -/
def outside (present : Word) (k lo hi : Nat) (w : Word) : Bool :=
  carried present k && !(decide (lo ≤ w.toNat) && decide (w.toNat ≤ hi))

/-- R29: the five settings after the request. -/
def LineSettings.update (l : LineSettings) (present b tW nWin declare unload : Word) : LineSettings where
  budget := newSetting present 0 0 65535 l.budget b
  window := newSetting present 1 1 60 l.window tW
  windowCount := newSetting present 2 1 8 l.windowCount nWin
  declareTime := newSetting present 3 5 300 l.declareTime declare
  unloadTime := newSetting present 4 10 600 l.unloadTime unload

def LineSettings.words (l : LineSettings) : List Word :=
  [l.budget, l.window, l.windowCount, l.declareTime, l.unloadTime].map (BitVec.ofNat 32)

/-- R29: some carried value was clamped. -/
def lineClamped (present b tW nWin declare unload : Word) : Bool :=
  outside present 0 0 65535 b || outside present 1 1 60 tW || outside present 2 1 8 nWin ||
    outside present 3 5 300 declare || outside present 4 10 600 unload

/-- SET_LINE (R29, R30). -/
def State.takeSetLine (s : State) (present b tW nWin declare unload : Word) : Taken :=
  let s := { s with line := s.line.update present b tW nWin declare unload }
  let s := if carried present 1 then { s with window := s.youngWindow } else s
  let s := if carried present 0 ∧ s.line.budget < s.load then s.raiseTo .b (.rack .overBudget) else s
  let s := if carried present 0 || carried present 1 || carried present 2 then s.testHead else s
  s.taken (lineClamped present b tW nWin declare unload) s.line.words

/-- R28: some slot of the class has a load phase other than OFF. -/
def State.classPowered (s : State) (c : ClassId) : Bool :=
  allSlots.any fun i => (s.record i).cls == some c && (s.record i).powered

/-- R28: the slot of the admission queue's head is of the class. -/
def State.headOfClass (s : State) (c : ClassId) : Bool :=
  match s.admission with
  | e :: _ => (s.record e.slot).cls == some c
  | [] => false

/-- SET_CLASS (R28). -/
def State.takeSetClass (s : State) (cls : Word) (asked : ClassEntry) : Taken :=
  match number8 cls with
  | none => s.noSuch
  | some c =>
    if s.classPowered c then s.refuse .busy
    else
      let e := asked.clamp
      let s := { s with classTable := s.classTable.set c e }
      let s := if s.headOfClass c then s.testHead else s
      s.taken (asked != e) e.words

/-! ## DPE: DIRECT_OP (R64), SET_TIMING (R67) -/

/-- R64, step 1: the kinds that DIRECT_OP accepts. -/
def DirectKind.ofCode : Nat → Option DirectKind
  | 1 => some .identify
  | 2 => some .readVerify
  | 5 => some .healthPoll
  | _ => none

/-- R64, step 5: the count as taken. -/
def directCount (capacity start count : Nat) : Nat := min (clampNat 1 Config.directMax count) (capacity - start)

/-- R64: the direct operation taken, or none for a start sector at or beyond the capacity. Only READ_VERIFY has sectors. -/
def directTaken (kind : DirectKind) (capacity start count : Nat) : Option DirectOp :=
  match kind with
  | .readVerify =>
    if capacity ≤ start then none
    else
      let n := directCount capacity start count
      some { kind := kind, start := start, count := n, clamped := n != count }
  | _ => some { kind := kind, start := 0, count := 0, clamped := false }

/-- R64, step 2: the slot is in READY, or in HELD with its port's ready flag set. -/
def State.directAllowed (s : State) (i : SlotId) : Bool :=
  (s.record i).state == .ready || ((s.record i).state == .held && (s.dpe i).ready)

/-- R64, R182: an accepted direct operation waits at the port, and the LI keeps its outstanding-reply record. -/
def State.acceptDirect (s : State) (tag : Word) (i : SlotId) (d : DirectOp) : State :=
  let record : Outstanding := { tag := tag, slot := i, mark := false }
  let s := { s with outstanding := s.outstanding ++ [record] }
  (s.modDpe i fun e => { e with direct := some d }).openPort i

/-- DIRECT_OP (R64). An accepted one is answered when its operation ends (R65). -/
def State.takeDirectOp (s : State) (tag slot kind startHi startLo countHi countLo : Word) : Taken :=
  s.onSlot slot fun i =>
    match DirectKind.ofCode (small kind) with
    | none => s.malformed
    | some k =>
      if !s.directAllowed i then s.refuse .wrongState
      else if (s.dpe i).directOp.isSome then s.refuse .busy
      else
        match directTaken k (s.record i).capacity (read48 startHi startLo) (read48 countHi countLo) with
        | none => s.refuse .noSuch
        | some d => { state := s.acceptDirect tag i d, answer := none }

/-- R67: the three settings after the request. -/
def TimingSettings.update (t : TimingSettings) (present period hot poll : Word) : TimingSettings where
  period := newSetting present 0 1 600 t.period period
  hot := if carried present 1 then clampInt 30 85 hot.toInt else t.hot
  poll := newSetting present 2 1 30 t.poll poll

def TimingSettings.words (t : TimingSettings) : List Word :=
  [BitVec.ofNat 32 t.period, BitVec.ofInt 32 t.hot, BitVec.ofNat 32 t.poll]

/-- R67: some carried value was clamped. -/
def timingClamped (present period hot poll : Word) : Bool :=
  outside present 0 1 600 period || (carried present 1 && clampInt 30 85 hot.toInt != hot.toInt) || outside present 2 1 30 poll

/-- SET_TIMING (R67). -/
def State.takeSetTiming (s : State) (present period hot poll : Word) : Taken :=
  let s := { s with timing := s.timing.update present period hot poll }
  s.taken (timingClamped present period hot poll) s.timing.words

/-! ## GE: SET_GRADE_TABLE (R123, R124) -/

/-- R124: the table as taken, its revision one above the old. -/
def GradeTable.next (old asked : GradeTable) : GradeTable := { asked.clamp with set := true, revision := old.revision + 1 }

/-- SET_GRADE_TABLE (R123, R124). -/
def State.takeSetGradeTable (s : State) (asked : GradeTable) : Taken :=
  if s.engine.isSome then s.refuse .busy
  else
    let g := s.grade.next asked
    if !ascending g.thresholds then s.refuse .badTable
    else
      let s := { s with grade := g, unsetNotice := false }.tryTake
      s.taken (asked.altered g) g.words

/-! ## AU: SET_MASK (R172) -/

/-- R172, step 2: the causes whose kind goes from enabled to disabled are dropped. -/
def Attention.setMask (a : Attention) (m : BitVec 13) : Attention :=
  let keep := fun bit => !(a.mask.getLsbD bit && !m.getLsbD bit)
  { a with mask := m, slotSets := a.slotSets.map fun set => set.filter fun c => keep c.maskBit
           rackSet := a.rackSet.filter fun c => keep c.maskBit }

/-- SET_MASK (R172): an indication for a kind that the master does not receive is not taken. Bits above 12 are no
indications (log entry 22). -/
def State.takeSetMask (s : State) (p : Port) (mask : Word) : Taken :=
  let asked := mask.setWidth 13
  let m := asked &&& receivedMask p
  (s.modAtt p fun a => a.setMask m).taken (asked != m) [m.setWidth 32]

end Sys2Proof.Machine
end

