-- ==== Sys2Proof/Machine/PlanRequests.lean ====
section
/-! DEFINITION. The requests of the SQ (chapter 4): LOAD_PLAN, START, HOLD, RESUME, ABORT and RETEST. -/

namespace Sys2Proof.Machine

/-! ## LOAD_PLAN (R71, R72) -/

/-- LOAD_PLAN (R71, R72), its step entries in threes. -/
def State.takeLoadPlan (s : State) (plan : Word) (entries : List StepWords) : Taken :=
  match number8 plan with
  | none => s.noSuch
  | some p =>
    match entries.mapM readStep with
    | none => s.malformed
    | some es =>
      if s.plans[p].useCount ≠ 0 then s.refuse .inUse
      else if badPlan es then s.refuse .badPlan
      else
        let taken := es.map StepEntry.clamp
        (s.modPlan p fun q => { q with entries := taken }).taken (es != taken) [BitVec.ofNat 32 taken.length]

/-! ## START (R75) -/

/-- R75: one slot of the set: its own status, and the state it leaves. -/
def State.startSlot (s : State) (p : PlanId) (w : Word) : Status × State :=
  match s.checkSlot w with
  | .error a => (a.status, s)
  | .ok i =>
    if (s.record i).state = .ready then
      let s := ((s.clearTest i).modRecord i fun r => { r with notifyCode := none }).usePlan p
      (.ok, s.startRun i p)
    else (.wrongState, s)

/-- R192: a slot's word in the reply of START. -/
def startWord (w : Word) (st : Status) : Word := word [place (small w) 8 8, place st.code 0 8]

/-- R75: the slots of the set in the order named; the reply words, and the state after the last. -/
def State.startSlots (p : PlanId) : List Word → State → List Word × State
  | [], s => ([], s)
  | w :: ws, s =>
    let r := s.startSlot p w
    let rest := State.startSlots p ws r.2
    (startWord w r.1 :: rest.1, rest.2)

/-- START (R75). -/
def State.takeStart (s : State) (plan : Word) (slots : List Word) : Taken :=
  if slots.isEmpty || decide (24 < slots.length) || !(decide (slots.map small).Nodup) then s.malformed
  else
    match number8 plan with
    | none => s.noSuch
    | some p =>
      if s.plans[p].entries.isEmpty then s.refuse .badPlan
      else
        let r := State.startSlots p slots s
        r.2.ok r.1

/-! ## HOLD (R91) -/

/-- R91: a step that a HOLD waits for: an operation of the SQ is in flight, or a POWER_CYCLE step is in SURGE or
REIDENTIFY. -/
def State.holdDeferred (s : State) (i : SlotId) : Bool :=
  s.sqInFlight i ||
    match (s.record i).run with
    | some c => c.phase == .surge || c.phase == .reidentify
    | none => false

/-- HOLD (R91). -/
def State.takeHold (s : State) (slot : Word) : Taken :=
  s.onSlot slot fun i =>
    match (s.record i).state with
    | .held => s.ok
    | .running =>
      if (s.holdWaiting i).isSome then s.ok
      else if s.holdDeferred i then (s.modRun i fun c => { c with holdPending := some .masterHold }).ok
      else (s.enterHeld i .masterHold).ok
    | _ => s.refuse .wrongState

/-! ## RESUME (R93) -/

/-- R93: a POWER_CYCLE step continues from the phase it was held at. -/
def State.resumeCycle (s : State) (i : SlotId) (phase : StepPhase) : State :=
  let identify := fun s : State => (s.setPhase i .reidentify).offer i .sq .identify Config.identifyTimeout
  let spinup := fun s : State => (s.setPhase i .waitSpinup).fileAdmission i .spinup
  match phase with
  | .off => s
  | .waitSpinup => spinup s
  | .surge => if (s.dpe i).ready then identify s else spinup (s.cutPower i)
  | .reidentify => identify s
  | _ => s.firstAction i

/-- R93: the step continues from its resume point. -/
def State.resumeStep (s : State) (i : SlotId) : State :=
  match (s.record i).run, s.stepEntry i with
  | some c, some e =>
    match e with
    | .hold => s.runStep i (c.step + 1)
    | .seekstorm d _ _ _ => if d * 1000 ≤ c.credit then s.endOfStep i else s.firstAction i
    | .powerCycle _ => s.resumeCycle i c.phase
    | _ => s.firstAction i
  | _, _ => s

/-- R93: RESUME of a HELD slot. -/
def State.resumeHeld (s : State) (i : SlotId) : State := ((s.enter i .running).evaluateBand i true).resumeStep i

/-- R93: RESUME of a RUNNING slot drops the pending hold; after a THERMAL_STALL the band is evaluated as at RESUME. -/
def State.dropHold (s : State) (i : SlotId) (h : HoldPending) : State :=
  let s := s.modRun i fun c => { c with holdPending := none }
  if h = .thermalStall then s.evaluateBand i true else s

/-- RESUME (R93). -/
def State.takeResume (s : State) (slot : Word) : Taken :=
  s.onSlot slot fun i =>
    match (s.record i).state with
    | .running =>
      match s.holdWaiting i with
      | some h => (s.dropHold i h).ok
      | none => s.refuse .wrongState
    | .held => (s.resumeHeld i).ok
    | _ => s.refuse .wrongState

/-! ## ABORT (R94, R20) -/

/-- R20: ABORT in GRADING, with the plan number that the GE hands back. -/
def State.abortGrading (s : State) (i : SlotId) : State :=
  let plan := s.gradingPlan i
  let s := s.teardown i .aborted
  s.enterDone i (s.abortedVerdict plan)

/-- R94: ABORT in RUNNING or HELD. -/
def State.abortRun (s : State) (i : SlotId) : State :=
  let plan := (s.record i).run.map RunContext.plan
  let s := s.teardown i .aborted
  let v := s.abortedVerdict plan
  if (s.record i).powered then (s.modSm i fun m => { m with carriedVerdict := some v }).powerDown i .abort
  else s.enterDone i v

/-- ABORT (R94). -/
def State.takeAbort (s : State) (slot : Word) : Taken :=
  s.onSlot slot fun i =>
    match (s.record i).state with
    | .grading => (s.abortGrading i).ok
    | .running | .held => (s.abortRun i).ok
    | _ => s.refuse .wrongState

/-! ## RETEST (R76) -/

/-- R76, steps 1 to 4. -/
def State.retestSlot (s : State) (i : SlotId) (p : PlanId) : State :=
  let s := (s.leaveQueue i).clearTest i
  let s := s.modRecord i fun r => { r with verdict := none, notifyCode := none, startPlan := some p }
  (s.usePlan p).enterSpinWait i

/-- RETEST (R76). -/
def State.takeRetest (s : State) (slot plan : Word) : Taken :=
  s.onSlot slot fun i =>
    match number8 plan with
    | none => s.noSuch
    | some p =>
      if s.plans[p].entries.isEmpty then s.refuse .badPlan
      else if (s.record i).state ≠ .done then s.refuse .wrongState
      else if (s.record i).inLot then s.refuse .inLot
      else (s.retestSlot i p).ok

end Sys2Proof.Machine
end

