-- ==== Sys2Proof/Machine/LotRequests.lean ====
section
/-! DEFINITION. The requests of the BLU (chapter 8): OPEN_LOT, CLOSE_LOT, RELEASE_LOT, NEXT_PICK, CANCEL_PICK, UNLOAD, WITHDRAW and
REQUEUE. -/

namespace Sys2Proof.Machine

/-- A request on one lot: a number above 7 is refused NO_SUCH, address-valid clear (R163). -/
def State.onLot (s : State) (w : Word) (act : LotId → Taken) : Taken :=
  match number8 w with
  | some n => act n
  | none => s.noSuch

/-! ## OPEN_LOT (R148), CLOSE_LOT (R149), RELEASE_LOT (R151) -/

/-- The lowest-numbered FREE lot. -/
def State.freeLotNumber (s : State) : Option LotId := (List.finRange 8).find? fun n => s.lots[n].state == .free

/-- R148, steps 1 to 3. -/
def State.openLot (s : State) (n : LotId) (b : Bin) (capacity : Nat) (label : Chars 16) : State :=
  let s := s.modLot n fun _ =>
    { state := .open_, bin := b, capacity := capacity, label := label, opened := s.now, entries := [] }
  { s with opening := s.opening ++ [n] }.fillLot n

/-- OPEN_LOT (R148). -/
def State.takeOpenLot (s : State) (bin capacity l0 l1 l2 l3 : Word) : Taken :=
  match Bin.ofCode (small bin) with
  | none => s.malformed
  | some b =>
    match s.freeLotNumber with
    | none => s.refuse .noRoom
    | some n =>
      let cap := clampNat 1 60 capacity.toNat
      let s := s.openLot n b cap (unpackLabel l0 l1 l2 l3)
      s.taken (cap != capacity.toNat)
        [word [place n.val 24 8, place cap 16 8, place s.lots[n].entries.length 8 8, place s.lots[n].state.code 0 8]]

/-- R149: an OPEN lot is closed. -/
def State.closeOpenLot (s : State) (n : LotId) : State :=
  if s.lots[n].entries.isEmpty then s.freeLot n
  else (s.modLot n fun l => { l with state := .closed, capacity := l.entries.length }).testComplete n

/-- CLOSE_LOT (R149). -/
def State.takeCloseLot (s : State) (lot : Word) : Taken :=
  s.onLot lot fun n => if s.lots[n].state = .open_ then (s.closeOpenLot n).ok else s.refuse .wrongState

/-- RELEASE_LOT (R151). -/
def State.takeReleaseLot (s : State) (lot : Word) : Taken :=
  s.onLot lot fun n => if s.lots[n].state = .complete then (s.freeLot n).ok else s.refuse .wrongState

/-! ## NEXT_PICK (R152), CANCEL_PICK (R154) -/

/-- R152: the earliest UNPICKED entry of a lot. -/
def Lot.nextEntry (l : Lot) : Option LotEntry := l.entries.find? fun e => e.state == .unpicked

/-- R152: the entry of slot `i` becomes PICKING and its slot moves to UNLOADING. -/
def State.pick (s : State) (n : LotId) (i : SlotId) : State :=
  (s.setEntries n (changeEntry i .unpicked .picking s.lots[n].entries)).doneToUnloading i

/-- NEXT_PICK (R152); with no entry to name the body is six words of 0 (log entry 21). -/
def State.takeNextPick (s : State) (lot : Word) : Taken :=
  s.onLot lot fun n =>
    match s.lots[n].state with
    | .free | .complete => s.refuse .wrongState
    | .open_ | .full | .closed =>
      match s.lots[n].nextEntry with
      | some e => (s.pick n e.slot).ok (word [place 1 31 1, place e.slot.val 0 8] :: packBytes e.serial.toList)
      | none => s.ok (List.replicate 6 0)

/-- R154: a slot in UNLOADING returns to DONE by what it holds. DEDUCED (log entry 41): "no cause is raised" of a slot with a
verdict and no lot entry means no cause for the slot; a lot that its placement fills raises LOT_FULL (R145). -/
def State.cancelPick (s : State) (i : SlotId) : State :=
  if s.isPicking i then (s.markEntry i .picking .unpicked).enter i .done
  else if (s.record i).verdict.isSome then (s.enter i .done).placeSlot i
  else s.enterDone i (s.abortedVerdict none)

/-- CANCEL_PICK (R154). -/
def State.takeCancelPick (s : State) (slot : Word) : Taken :=
  s.onSlot slot fun i =>
    if (s.record i).state = .unloading then (s.cancelPick i).ok else s.refuse .wrongState

/-! ## UNLOAD (R156 to R158) -/

/-- R157: an unload from DONE. -/
def State.unloadDone (s : State) (i : SlotId) : State := ((s.leaveQueue i).setPlacement i .none).doneToUnloading i

/-- R158: a forced unload. An ABORTED verdict already made, and the plan number carried since END, become absent. -/
def State.forceUnload (s : State) (i : SlotId) : State :=
  let s := s.teardown i .aborted
  let s := s.modSm i fun m => { m with carriedPlan := none, carriedVerdict := none }
  if (s.record i).powered then s.powerDown i .unload else s.enterUnloading i

/-- R156: an accepted UNLOAD gives the state that the slot has entered. -/
def State.unloaded (s : State) (i : SlotId) : Taken := s.ok [place (s.record i).state.code 0 8]

/-- UNLOAD (R156). The force indication is bit 0 of its word; that bits 7 to 1 are ignored is DEDUCED (log entry 22). -/
def State.takeUnload (s : State) (slot force : Word) : Taken :=
  s.onSlot slot fun i =>
    match (s.record i).state with
    | .done => if (s.record i).inLot then s.refuse .inLot else (s.unloadDone i).unloaded i
    | .loaded | .spinWait | .spinning | .identifying | .ready => (s.forceUnload i).unloaded i
    | .running | .held | .grading | .poweringDown =>
      if (s.record i).custody = .test ∧ force.getLsbD 0 then (s.forceUnload i).unloaded i else s.refuse .wrongState
    | .unloading | .empty | .disabled => s.refuse .wrongState

/-! ## WITHDRAW (R159, R160), REQUEUE (R161) -/

/-- R160: the slot's UNPICKED entry leaves lot `n`, and the lot is treated by its state. -/
def State.withdrawFrom (s : State) (n : LotId) (i : SlotId) : State :=
  let s := s.setEntries n (s.lots[n].entries.filter fun e => !(e.slot == i && e.state == .unpicked))
  let s := s.setPlacement i .none
  match s.lots[n].state with
  | .full => (s.setLotState n .open_).fillLot n
  | .closed =>
    let s := s.modLot n fun l => { l with capacity := l.entries.length }
    if s.lots[n].entries.isEmpty then s.freeLot n else s.testComplete n
  | .open_ | .free | .complete => s

/-- WITHDRAW (R159, R160). -/
def State.takeWithdraw (s : State) (slot : Word) : Taken :=
  s.onSlot slot fun i =>
    if (s.record i).state ≠ .done then s.refuse .wrongState
    else
      match (s.record i).placement with
      | .none => s.refuse .wrongState
      | .pending => (s.leaveQueue i).ok
      | .lot n => (s.withdrawFrom n i).ok

/-- REQUEUE (R161). -/
def State.takeRequeue (s : State) (slot : Word) : Taken :=
  s.onSlot slot fun i =>
    if (s.record i).state = .done ∧ (s.record i).placement = .none then
      let s := s.placeSlot i
      let q := (s.record i).placement
      s.ok [word [place q.code 8 8, place q.lotNumber 0 8]]
    else s.refuse .wrongState

end Sys2Proof.Machine
end

