-- ==== Sys2Proof/Machine/Reset.lean ====
section
/-! DEFINITION. Rack reset (section 10.5): what each block does in the one event (R26, R46, R47, R69, R95, R106, R130, R173,
R188), the request RACK_RESET, and the RESET_DONE notices. -/

namespace Sys2Proof.Machine

/-! ## Ports and slots -/

/-- R69, the port's own part. -/
def Engine.rackReset (e : Engine) (now : RackTime) : Engine :=
  { e.startReset now with pollPending := false, misses := 0, direct := none, ownerOp := none }

/-- R69: the port of slot `i`, whose patrol timer restarts if patrol is active. -/
def State.rackResetPort (s : State) (i : SlotId) : State := (s.modDpe i fun e => e.rackReset s.now).startPatrol i

/-- R26: the SM's operation is offered again once the port reset has ended. -/
def State.reoffer (s : State) (i : SlotId) (op : Operation) (timeout : Nat) : State :=
  s.modDpe i fun e => { e with ownerOp := some { owner := .sm, op := op, timeout := timeout } }

/-- R46, step 1: the ready timer of a slot in SPINNING restarts with the full Tr of its class. -/
def State.restartReady (s : State) (i : SlotId) : State :=
  s.modPau i fun t => { t with readyTimer := some (afterSec s.now (s.classEntry i).tr) }

/-- R26, R46, R95: a RUNNING slot becomes HELD with hold cause RESET: its queue entry is withdrawn, and the ready timer of a
POWER_CYCLE step stops. The trays are emptied, and the head tested and the seek loads released, for all slots together. -/
def State.holdForReset (s : State) (i : SlotId) : State :=
  ({ s with admission := s.admission.filter fun e => e.slot != i }.markHeld i .reset).modPau i fun t =>
    { t with readyTimer := none }

/-- R26: slot `i` by its state. -/
def State.rackResetSlot (s : State) (i : SlotId) : State :=
  match (s.record i).state with
  | .loaded => s.startDeclare i
  | .spinning => s.restartReady i
  | .identifying => s.reoffer i .identify Config.identifyTimeout
  | .running => s.holdForReset i
  | .poweringDown => s.reoffer i .standby Config.standbyTimeout
  | .unloading => s.startUnload i
  | .disabled | .empty | .spinWait | .ready | .held | .grading | .done => s

/-! ## Queues -/

/-- R33: where the head is no longer `old`, it has become the head and is tested at once. -/
def State.testNewHead (s : State) (old : Option AdmissionEntry) : State :=
  if s.admission.head? = old then s else s.newHead.testHead

/-- R46, step 2, R33, R37: the slots of `held` have withdrawn their entries from the queue, whose head was `old`; each in
turn releases its seek load, and the head is tested. DESIGN CHOICE (log entry 36): all entries are withdrawn before the
first release, so that no slot that goes to HELD is admitted on the way. -/
def State.releaseHeld (s : State) (held : List SlotId) (old : Option AdmissionEntry) : State :=
  held.foldl State.releaseSeek (s.testNewHead old)

/-- R47: a slot in SPIN_WAIT that holds a SPINUP entry keeps one. -/
def State.keepsEntry (s : State) (i : SlotId) : Bool :=
  (s.record i).state == .spinWait && s.admission.any fun e => e.slot == i && e.kind == .spinup

/-- R46, step 3, R47: the admission queue is rebuilt in ascending slot order and its head tested. -/
def State.rebuildAdmission (s : State) : State :=
  let entries := (allSlots.filter s.keepsEntry).map fun i => { slot := i, kind := .spinup, arrival := s.now }
  ({ s with admission := entries }.newHead).testHead

/-- R130: the entry of a slot in GRADING in the rebuilt queue, with its plan number kept. -/
def State.regraded (s : State) (i : SlotId) : Option GradingEntry :=
  if (s.record i).state = .grading then some { slot := i, plan := (s.gradingPlan i).getD 0, arrival := s.now } else none

/-- R130: any grading is abandoned, the queue rebuilt in ascending slot order, the unset-notice flag cleared. -/
def State.rebuildGrading (s : State) : State :=
  { s with gradingQueue := allSlots.filterMap s.regraded, engine := none, unsetNotice := false }

/-- R130, the GE's acts after the AU has cleared its causes. -/
def State.regrade (s : State) : State := if s.gradingQueue.isEmpty then s else s.noteUnset.tryTake

/-! ## The AU and the LI -/

/-- R173, steps 1 to 3. -/
def State.resetAttention (s : State) : State := { s with attA := { mask := fullMaskA }, attB := { mask := fullMaskB } }

/-- R188, steps 1 and 2, and the notices held: nothing formed before the reset is kept. -/
def LinkPort.rackReset (l : LinkPort) : LinkPort := { l with fifo := [], out := [], held := [] }

/-- R188: the LI's part, with the origin recorded. The flow-control stop follows the FIFO and the reset input. -/
def State.resetLinks (s : State) (o : Origin) : State :=
  { s with linkA := s.linkA.rackReset, linkB := s.linkB.rackReset, outstanding := [], origin := o }

/-! ## The event -/

/-- The slots that go from RUNNING to HELD (R26). -/
def State.runningSlots (s : State) : List SlotId := allSlots.filter fun i => (s.record i).state == .running

/-- R187: a rack reset with origin `o`, as one event: the blocks' actions, then the causes that R173 records. -/
def State.rackReset (s : State) (o : Origin) : State :=
  let held := s.runningSlots
  let head := s.admission.head?
  let s := allSlots.foldl State.rackResetPort s
  let s := allSlots.foldl State.rackResetSlot s
  let s := { s with trays := Vector.replicate 3 {} }
  let s := ((s.releaseHeld held head).rebuildGrading).rebuildAdmission
  let s := (s.resetLinks o).resetAttention
  (held.foldl (fun s i => s.raiseTo .a (.slot .held i)) s).regrade

/-- R188: RESET_DONE is placed on a port whose link is UP. -/
def State.placeResetDone (s : State) (o : Origin) (p : Port) : State :=
  if s.linkIsUp p then s.pushOut p (.notice (.resetDone s.now o)) else s

/-- The origin of a RACK_RESET by its port (R187). -/
def portOrigin : Port → Origin
  | .a => .portA
  | .b => .portB

/-- RACK_RESET (R187, R188): answered by RESET_DONE on both ports and by no reply. -/
def State.takeRackReset (s : State) (p : Port) : Taken :=
  { state := ((s.rackReset (portOrigin p)).placeResetDone (portOrigin p) .a).placeResetDone (portOrigin p) .b
    answer := none }

end Sys2Proof.Machine
end

