-- ==== Sys2Proof/Machine/Links.lean ====
section
/-! DEFINITION. The Link Interface (chapter 10): request packets into the FIFO, judged and handed to their owners, replies out;
link changes, the reset input and power-on. The meanings of the 24 requests and of the seven events of the LI. -/

namespace Sys2Proof.Machine

/-! ## Requests by kind (R192) -/

/-- R178, step 3: the owner takes the request. A body whose length is not the one of R192 is MALFORMED before any other
check. -/
def State.takeRequest (s : State) (p : Port) (k : ReqKind) (tag : Word) (body : List Word) : Taken :=
  match k with
  | .read => match body with
    | [c, i, n] => s.takeRead p c i n
    | _ => s.malformed
  | .setMask => match body with
    | [m] => s.takeSetMask p m
    | _ => s.malformed
  | .rackReset => match body with
    | [] => s.takeRackReset p
    | _ => s.malformed
  | .loadPlan => match body with
    | plan :: rest => match readTriples rest with
      | some entries => s.takeLoadPlan plan entries
      | none => s.malformed
    | _ => s.malformed
  | .start => match body with
    | plan :: slots => s.takeStart plan slots
    | _ => s.malformed
  | .hold => match body with
    | [slot] => s.takeHold slot
    | _ => s.malformed
  | .resume => match body with
    | [slot] => s.takeResume slot
    | _ => s.malformed
  | .abort => match body with
    | [slot] => s.takeAbort slot
    | _ => s.malformed
  | .retest => match body with
    | [slot, plan] => s.takeRetest slot plan
    | _ => s.malformed
  | .slotReset => match body with
    | [slot] => s.takeSlotReset slot
    | _ => s.malformed
  | .directOp => match body with
    | [slot, kind, a, b, c, d] => s.takeDirectOp tag slot kind a b c d
    | _ => s.malformed
  | .setTiming => match body with
    | [present, period, hot, poll] => s.takeSetTiming present period hot poll
    | _ => s.malformed
  | .setClass => match body with
    | [cls, w0, w1, w2, w3, w4, w5] => s.takeSetClass cls (readClass w0 w1 w2 w3 w4 w5)
    | _ => s.malformed
  | .setGradeTable => match body with
    | [w1, w2, w3, w4, w5] => s.takeSetGradeTable (readTable w1 w2 w3 w4 w5)
    | _ => s.malformed
  | .declare => match body with
    | [slot, cls] => s.takeDeclare slot cls
    | _ => s.malformed
  | .setLine => match body with
    | [present, b, tW, nWin, declare, unload] => s.takeSetLine present b tW nWin declare unload
    | _ => s.malformed
  | .openLot => match body with
    | [bin, capacity, l0, l1, l2, l3] => s.takeOpenLot bin capacity l0 l1 l2 l3
    | _ => s.malformed
  | .closeLot => match body with
    | [lot] => s.takeCloseLot lot
    | _ => s.malformed
  | .nextPick => match body with
    | [lot] => s.takeNextPick lot
    | _ => s.malformed
  | .cancelPick => match body with
    | [slot] => s.takeCancelPick slot
    | _ => s.malformed
  | .unload => match body with
    | [slot, force] => s.takeUnload slot force
    | _ => s.malformed
  | .withdraw => match body with
    | [slot] => s.takeWithdraw slot
    | _ => s.malformed
  | .requeue => match body with
    | [slot] => s.takeRequeue slot
    | _ => s.malformed
  | .releaseLot => match body with
    | [lot] => s.takeReleaseLot lot
    | _ => s.malformed

/-! ## Dispatch (R178, R179) -/

/-- R178: a packet judged: MALFORMED by its header (its kind and tag are echoed, log entry 26), NOT_THIS_PORT, or handed
to its owner. -/
def State.judge (s : State) (p : Port) (x : Packet) : Taken :=
  if x.ptype ≠ 1 ∨ x.len.toNat ≠ x.body.length ∨ 256 < x.body.length then s.malformed
  else
    match ReqKind.ofCode x.kind.toNat with
    | none => s.malformed
    | some k => if k.acceptedOn p then s.takeRequest p k x.tag x.body else s.refuse .notThisPort

/-- R179, R180: the reply, with the request's tag and kind, is placed in the same event, before its ATTENTION (log entry
17). -/
def Taken.placed (t : Taken) (p : Port) (x : Packet) : State :=
  match t.answer with
  | none => t.state
  | some a =>
    t.state.pushOut p (.reply { tag := x.tag, kind := x.kind, status := a.status, done := a.status.done
                                addressValid := a.addressValid, body := a.body })

/-- One request taken from a port: an event of its own (log entry 7). -/
def State.takePacket (s : State) (p : Port) (x : Packet) : State := ((s.judge p x).placed p x).endEvent

/-- R179, R187: the LI takes the next packet unless 8 counted replies wait unsent or the reset input is low. -/
def State.canTake (s : State) (p : Port) : Bool := !s.resetLow && decide ((s.link p).unsent < Config.replyLimit)

/-- R179: requests are taken from the FIFO, oldest first, while dispatch is not paused; `n` bounds the turn by the packets
held. -/
def State.pump : Nat → Port → State → State
  | 0, _, s => s
  | n + 1, p, s =>
    if s.canTake p then
      match (s.link p).fifo with
      | [] => s
      | x :: rest => State.pump n p ((s.modLink p fun l => { l with fifo := rest }).takePacket p x)
    else s

def State.dispatch (s : State) (p : Port) : State := State.pump (s.link p).fifo.length p s

/-- The LI can take a packet of the port. -/
def State.offersPacket (s : State) (p : Port) : Bool := s.canTake p && !(s.link p).fifo.isEmpty

/-- The packet at the head of a port's FIFO is taken. -/
def State.takeHead (s : State) (p : Port) : State :=
  match (s.link p).fifo with
  | [] => s
  | x :: rest => (s.modLink p fun l => { l with fifo := rest }).takePacket p x

/-- R178, R179: packets of both ports are taken. Where both ports offer one, which goes first is a free value (log entry
8); `n` bounds the turn by the packets held. -/
def State.pumpBoth : Nat → State → State
  | 0, s => s
  | n + 1, s =>
    match s.offersPacket .a, s.offersPacket .b with
    | true, true => State.pumpBoth n ({ s with freeCount := s.freeCount + 1 }.takeHead (Config.nextPort s.freeCount))
    | true, false => State.pumpBoth n (s.takeHead .a)
    | false, true => State.pumpBoth n (s.takeHead .b)
    | false, false => s

def State.dispatchBoth (s : State) : State := State.pumpBoth (s.linkA.fifo.length + s.linkB.fifo.length) s

/-! ## Packets in (R177) -/

/-- R177: a packet discarded on an UP port: LINK_ERROR toward the master of the port. -/
def State.discard (s : State) (p : Port) : State := (s.raiseTo p (.rack .linkError)).endEvent

/-- R177: a packet arrives: ignored on a DOWN port; discarded for an error (`none`) or against the stop of a full FIFO;
else it joins the tail of the FIFO, also while the reset input is low (log entry 19), and dispatch goes on. -/
def State.receive (s : State) (p : Port) (x : Option Packet) : State :=
  if !s.linkIsUp p then s
  else
    match x with
    | none => s.discard p
    | some x =>
      if Config.fifoDepth ≤ (s.link p).fifo.length then s.discard p
      else (s.modLink p fun l => { l with fifo := l.fifo ++ [x] }).dispatch p

/-- A good request packet of kind `k` with the given body arrives at port `p` (log entry 7). -/
def State.request (s : State) (p : Port) (k : ReqKind) (tag : Word) (body : List Word) :
    Host.Outcome State Fault Refusal := .next (s.receive p (some (requestPacket k tag body)))

/-! ## The 24 requests -/

/-- READ. -/
def execRead (p : Port) (tag collection index count : Word) (s : State) : Host.Outcome State Fault Refusal :=
  s.request p .read tag [collection, index, count]

/-- SET_MASK. -/
def execSetMask (p : Port) (tag mask : Word) (s : State) : Host.Outcome State Fault Refusal :=
  s.request p .setMask tag [mask]

/-- RACK_RESET. -/
def execRackReset (p : Port) (tag : Word) (s : State) : Host.Outcome State Fault Refusal := s.request p .rackReset tag []

/-- LOAD_PLAN. -/
def execLoadPlan (p : Port) (tag plan : Word) (entries : List StepWords) (s : State) : Host.Outcome State Fault Refusal :=
  s.request p .loadPlan tag (plan :: entries.flatMap stepList)

/-- START. -/
def execStart (p : Port) (tag plan : Word) (slots : List Word) (s : State) : Host.Outcome State Fault Refusal :=
  s.request p .start tag (plan :: slots)

/-- HOLD. -/
def execHold (p : Port) (tag slot : Word) (s : State) : Host.Outcome State Fault Refusal := s.request p .hold tag [slot]

/-- RESUME. -/
def execResume (p : Port) (tag slot : Word) (s : State) : Host.Outcome State Fault Refusal := s.request p .resume tag [slot]

/-- ABORT. -/
def execAbort (p : Port) (tag slot : Word) (s : State) : Host.Outcome State Fault Refusal := s.request p .abort tag [slot]

/-- RETEST. -/
def execRetest (p : Port) (tag slot plan : Word) (s : State) : Host.Outcome State Fault Refusal :=
  s.request p .retest tag [slot, plan]

/-- SLOT_RESET. -/
def execSlotReset (p : Port) (tag slot : Word) (s : State) : Host.Outcome State Fault Refusal :=
  s.request p .slotReset tag [slot]

/-- DIRECT_OP. -/
def execDirectOp (p : Port) (tag slot kind startHi startLo countHi countLo : Word) (s : State) :
    Host.Outcome State Fault Refusal := s.request p .directOp tag [slot, kind, startHi, startLo, countHi, countLo]

/-- SET_TIMING. -/
def execSetTiming (p : Port) (tag present period hot poll : Word) (s : State) : Host.Outcome State Fault Refusal :=
  s.request p .setTiming tag [present, period, hot, poll]

/-- SET_CLASS. -/
def execSetClass (p : Port) (tag cls surgeRun seekTrip times capHi capLo rate : Word) (s : State) :
    Host.Outcome State Fault Refusal := s.request p .setClass tag [cls, surgeRun, seekTrip, times, capHi, capLo, rate]

/-- SET_GRADE_TABLE. -/
def execSetGradeTable (p : Port) (tag weights limits slowT1 t2t3 t4t5 : Word) (s : State) :
    Host.Outcome State Fault Refusal := s.request p .setGradeTable tag [weights, limits, slowT1, t2t3, t4t5]

/-- DECLARE. -/
def execDeclare (p : Port) (tag slot cls : Word) (s : State) : Host.Outcome State Fault Refusal :=
  s.request p .declare tag [slot, cls]

/-- SET_LINE. -/
def execSetLine (p : Port) (tag present budget window count declareTime unloadTime : Word) (s : State) :
    Host.Outcome State Fault Refusal := s.request p .setLine tag [present, budget, window, count, declareTime, unloadTime]

/-- OPEN_LOT. -/
def execOpenLot (p : Port) (tag bin capacity label0 label1 label2 label3 : Word) (s : State) :
    Host.Outcome State Fault Refusal := s.request p .openLot tag [bin, capacity, label0, label1, label2, label3]

/-- CLOSE_LOT. -/
def execCloseLot (p : Port) (tag lot : Word) (s : State) : Host.Outcome State Fault Refusal := s.request p .closeLot tag [lot]

/-- NEXT_PICK. -/
def execNextPick (p : Port) (tag lot : Word) (s : State) : Host.Outcome State Fault Refusal := s.request p .nextPick tag [lot]

/-- CANCEL_PICK. -/
def execCancelPick (p : Port) (tag slot : Word) (s : State) : Host.Outcome State Fault Refusal :=
  s.request p .cancelPick tag [slot]

/-- UNLOAD. -/
def execUnload (p : Port) (tag slot force : Word) (s : State) : Host.Outcome State Fault Refusal :=
  s.request p .unload tag [slot, force]

/-- WITHDRAW. -/
def execWithdraw (p : Port) (tag slot : Word) (s : State) : Host.Outcome State Fault Refusal :=
  s.request p .withdraw tag [slot]

/-- REQUEUE. -/
def execRequeue (p : Port) (tag slot : Word) (s : State) : Host.Outcome State Fault Refusal := s.request p .requeue tag [slot]

/-- RELEASE_LOT. -/
def execReleaseLot (p : Port) (tag lot : Word) (s : State) : Host.Outcome State Fault Refusal :=
  s.request p .releaseLot tag [lot]

/-! ## The events of the links -/

/-- PACKET_RECEIVE (R177, R190): words that came with good framing are checked for their check word. -/
def execPacketReceive (p : Port) (framed : Bool) (words : List Word) (s : State) : Host.Outcome State Fault Refusal :=
  .next (s.receive p (if framed then readPacket words else none))

/-- R182, R179: the packet at the head of a port's outgoing path has been sent, and dispatch may go on. -/
def State.sent (s : State) (p : Port) : State := (s.modLink p fun l => { l with out := l.out.drop 1 }).dispatch p

/-- PACKET_SENT. -/
def execPacketSent (p : Port) (s : State) : Host.Outcome State Fault Refusal := .next (s.sent p)

/-- R189: the POWER_ON notice held for a port is placed at its first UP, the reset input low or not (log entry 25). -/
def State.placePowerOn (s : State) (p : Port) : State :=
  if (s.link p).powerOnHeld then
    (s.pushOut p (.notice (.resetDone s.now .powerOn))).modLink p fun l => { l with powerOnHeld := false }
  else s

/-- R175, R189: a DOWN port goes UP. -/
def State.goUp (s : State) (p : Port) : State :=
  if s.linkIsUp p then s else (s.modLink p fun l => { l with link := .up }).placePowerOn p

/-- LINK_UP. -/
def execLinkUp (p : Port) (s : State) : Host.Outcome State Fault Refusal := event (s.goUp p)

/-- R176: every direct-operation reply outstanding takes the drop mark when port A goes DOWN. -/
def State.dropReplies (s : State) (p : Port) : State :=
  match p with
  | .a => { s with outstanding := s.outstanding.map fun o => { o with mark := true } }
  | .b => s

/-- R175, R176: an UP port goes DOWN. -/
def State.goDown (s : State) (p : Port) : State :=
  if s.linkIsUp p then
    (s.modLink p fun l => { l with link := .down, fifo := [], out := [], held := [] }).dropReplies p
  else s

/-- LINK_DOWN. -/
def execLinkDown (p : Port) (s : State) : Host.Outcome State Fault Refusal := event (s.goDown p)

/-! ## The reset input and power-on (R187 to R189) -/

/-- R187: the reset input has read low for 1 ms: a rack reset, complete only when the input has returned high. An input
that was low already stays low (log entry 24). -/
def State.assertReset (s : State) : State :=
  if s.resetLow then s else { s.rackReset .resetInput with resetLow := true }

/-- RESET_INPUT_ASSERT. -/
def execResetInputAssert (s : State) : Host.Outcome State Fault Refusal := event s.assertReset

/-- R188: at completion RESET_DONE is placed on an UP port, and behind it the notices held. -/
def State.placeHeld (s : State) (o : Origin) (p : Port) : State :=
  let s := s.placeResetDone o p
  s.modLink p fun l =>
    { l with out := if l.link = .up then l.out ++ l.held.map OutPacket.notice else l.out, held := [] }

/-- R188: the reset input has read high for 1 ms: the reset is complete, and dispatch resumes. -/
def State.completeReset (s : State) : State :=
  if s.resetLow then
    (({ s with resetLow := false }.placeHeld .resetInput .a).placeHeld .resetInput .b).dispatchBoth
  else s

/-- RESET_INPUT_RELEASE. -/
def execResetInputRelease (s : State) : Host.Outcome State Fault Refusal := event s.completeReset

/-- POWER_ON_RESET (R189): every block at its power-on values; the presence inputs keep their levels (log entry 23). -/
def execPowerOnReset (straps : BitVec 24) (s : State) : Host.Outcome State Fault Refusal :=
  .next (State.powerOn straps (s.slots.map fun x => x.sm.raw) s.pending s.freeCount)

end Sys2Proof.Machine
end

