-- ==== Sys2Proof/Machine/Dispatch.lean ====
section
/-! DEFINITION. One arm per command, each a direct call of the command's meaning. -/

namespace Sys2Proof.Machine

/-- What a command does to everything but the queue. -/
def exec (i : Instr) (s : State) : Host.Outcome State Fault Refusal :=
  match i with
  | .read port tag collection index count => Sys2Proof.Machine.execRead port tag collection index count s
  | .setMask port tag mask => Sys2Proof.Machine.execSetMask port tag mask s
  | .rackReset port tag => Sys2Proof.Machine.execRackReset port tag s
  | .loadPlan port tag plan entries => Sys2Proof.Machine.execLoadPlan port tag plan entries s
  | .start port tag plan slots => Sys2Proof.Machine.execStart port tag plan slots s
  | .hold port tag slot => Sys2Proof.Machine.execHold port tag slot s
  | .resume port tag slot => Sys2Proof.Machine.execResume port tag slot s
  | .abort port tag slot => Sys2Proof.Machine.execAbort port tag slot s
  | .retest port tag slot plan => Sys2Proof.Machine.execRetest port tag slot plan s
  | .slotReset port tag slot => Sys2Proof.Machine.execSlotReset port tag slot s
  | .directOp port tag slot kind startHi startLo countHi countLo => Sys2Proof.Machine.execDirectOp port tag slot kind startHi startLo countHi countLo s
  | .setTiming port tag present period hot poll => Sys2Proof.Machine.execSetTiming port tag present period hot poll s
  | .setClass port tag cls surgeRun seekTrip times capHi capLo rate => Sys2Proof.Machine.execSetClass port tag cls surgeRun seekTrip times capHi capLo rate s
  | .setGradeTable port tag weights limits slowT1 t2t3 t4t5 => Sys2Proof.Machine.execSetGradeTable port tag weights limits slowT1 t2t3 t4t5 s
  | .declare port tag slot cls => Sys2Proof.Machine.execDeclare port tag slot cls s
  | .setLine port tag present budget window count declareTime unloadTime => Sys2Proof.Machine.execSetLine port tag present budget window count declareTime unloadTime s
  | .openLot port tag bin capacity label0 label1 label2 label3 => Sys2Proof.Machine.execOpenLot port tag bin capacity label0 label1 label2 label3 s
  | .closeLot port tag lot => Sys2Proof.Machine.execCloseLot port tag lot s
  | .nextPick port tag lot => Sys2Proof.Machine.execNextPick port tag lot s
  | .cancelPick port tag slot => Sys2Proof.Machine.execCancelPick port tag slot s
  | .unload port tag slot force => Sys2Proof.Machine.execUnload port tag slot force s
  | .withdraw port tag slot => Sys2Proof.Machine.execWithdraw port tag slot s
  | .requeue port tag slot => Sys2Proof.Machine.execRequeue port tag slot s
  | .releaseLot port tag lot => Sys2Proof.Machine.execReleaseLot port tag lot s
  | .packetReceive port framed words => Sys2Proof.Machine.execPacketReceive port framed words s
  | .packetSent port => Sys2Proof.Machine.execPacketSent port s
  | .linkUp port => Sys2Proof.Machine.execLinkUp port s
  | .linkDown port => Sys2Proof.Machine.execLinkDown port s
  | .resetInputAssert => Sys2Proof.Machine.execResetInputAssert s
  | .resetInputRelease => Sys2Proof.Machine.execResetInputRelease s
  | .powerOnReset straps => Sys2Proof.Machine.execPowerOnReset straps s
  | .presenceInputChange slot level => Sys2Proof.Machine.execPresenceInputChange slot level s
  | .insertionRecognised slot => Sys2Proof.Machine.execInsertionRecognised slot s
  | .removalRecognised slot => Sys2Proof.Machine.execRemovalRecognised slot s
  | .declareTimeout slot => Sys2Proof.Machine.execDeclareTimeout slot s
  | .unloadOverdue slot => Sys2Proof.Machine.execUnloadOverdue slot s
  | .currentConversion slot reading => Sys2Proof.Machine.execCurrentConversion slot reading s
  | .surgeTimerExpiry slot => Sys2Proof.Machine.execSurgeTimerExpiry slot s
  | .readyTimeout slot => Sys2Proof.Machine.execReadyTimeout slot s
  | .headWaitExpiry => Sys2Proof.Machine.execHeadWaitExpiry s
  | .windowEntryAged => Sys2Proof.Machine.execWindowEntryAged s
  | .driveReadyReport slot => Sys2Proof.Machine.execDriveReadyReport slot s
  | .driveCompletion slot completion => Sys2Proof.Machine.execDriveCompletion slot completion s
  | .operationTimeout slot => Sys2Proof.Machine.execOperationTimeout slot s
  | .portLinkUp slot => Sys2Proof.Machine.execPortLinkUp slot s
  | .portResetTimeout slot => Sys2Proof.Machine.execPortResetTimeout slot s
  | .patrolTimerExpiry slot => Sys2Proof.Machine.execPatrolTimerExpiry slot s
  | .soakCreditReached slot => Sys2Proof.Machine.execSoakCreditReached slot s
  | .offTimeReached slot => Sys2Proof.Machine.execOffTimeReached slot s
  | .stallTimerExpiry slot => Sys2Proof.Machine.execStallTimerExpiry slot s
  | .gradingCompletion => Sys2Proof.Machine.execGradingCompletion s

end Sys2Proof.Machine
end

