-- ==== Sys2Proof/Safety.lean ====
section
/-! DEFINITION. The terms that claims use: the invariants of the part, the frame that nearly every command keeps, and what it is
for a port to take a request at once and to answer it. -/

namespace Sys2Proof.Machine

/-! ## Settings (R3, R27, R29, R67, R122) -/

/-- R27: the ranges of a class entry. -/
def ClassEntry.InRange (e : ClassEntry) : Prop :=
  1 ≤ e.irun ∧ e.irun ≤ 4000 ∧ e.irun ≤ e.isurge ∧ e.isurge ≤ 4000 ∧ e.irun ≤ e.iseek ∧ e.iseek ≤ 4000 ∧
    1 ≤ e.trip ∧ e.trip ≤ 6000 ∧ 1 ≤ e.ts ∧ e.ts ≤ 30 ∧ 5 ≤ e.tr ∧ e.tr ≤ 60 ∧ e.capacity < 2 ^ 48 ∧ e.minRate < 2 ^ 32

/-- R29: the ranges of the line settings. -/
def LineSettings.InRange (l : LineSettings) : Prop :=
  l.budget ≤ 65535 ∧ 1 ≤ l.window ∧ l.window ≤ 60 ∧ 1 ≤ l.windowCount ∧ l.windowCount ≤ 8 ∧
    5 ≤ l.declareTime ∧ l.declareTime ≤ 300 ∧ 10 ≤ l.unloadTime ∧ l.unloadTime ≤ 600

/-- R67: the ranges of the patrol and port settings. -/
def TimingSettings.InRange (t : TimingSettings) : Prop :=
  1 ≤ t.period ∧ t.period ≤ 600 ∧ 30 ≤ t.hot ∧ t.hot ≤ 85 ∧ 1 ≤ t.poll ∧ t.poll ≤ 30

/-- R122: the ranges of a SET grade table; an UNSET one has revision 0 and every field 0. -/
def GradeTable.InRange (g : GradeTable) : Prop :=
  if g.set then
    1 ≤ g.wH ∧ g.wH ≤ 63 ∧ g.wS ≤ 15 ∧ g.wT ≤ 15 ∧ g.hardLimit ≤ 65535 ∧ g.slowLimit ≤ 255 ∧ g.seekLimit ≤ 65535 ∧
      1 ≤ g.binCount ∧ g.binCount ≤ 5 ∧ g.thresholds.length = g.binCount ∧ (∀ t ∈ g.thresholds, t ≤ 65535) ∧
      ascending g.thresholds = true
  else g = {}

/-- Every setting lies in its range. -/
def State.SettingsInRange (s : State) : Prop :=
  (∀ c : ClassId, s.classTable[c].InRange) ∧ s.line.InRange ∧ s.timing.InRange ∧ s.grade.InRange

/-! ## Power (R31, R32, section 1.2) -/

/-- The states whose Power column says off in the table of section 1.2. -/
def SlotState.unpowered : SlotState → Bool
  | .disabled | .empty | .loaded | .spinWait | .grading | .done | .unloading => true
  | .spinning | .identifying | .ready | .running | .held | .poweringDown => false

/-- R31, R32 and the Power column: L is the sum of the phase loads, an unpowered state has load phase OFF, a SPINUP entry
belongs to a slot in SPIN_WAIT or RUNNING, and a slot holds at most one entry. -/
structure State.PowerSafe (s : State) : Prop where
  load   : s.load = (allSlots.map s.phaseLoad).sum
  column : ∀ i, (s.record i).state.unpowered = true → (s.record i).phase = .off
  spinup : ∀ e ∈ s.admission, e.kind = .spinup → (s.record e.slot).state = .spinWait ∨ (s.record e.slot).state = .running
  single : (s.admission.map AdmissionEntry.slot).Nodup

/-! ## Trays (R96) -/

/-- R96: no nonzero quiet holder count beside a nonzero storm holder count. -/
def Tray.Unmixed (t : Tray) : Prop := t.quietCount = 0 ∨ t.stormCount = 0

/-- The slots that a tray names, as holders and as waiting. -/
def Tray.slots (t : Tray) : List SlotId := t.holders.map Holder.slot ++ t.queue.map TrayEntry.slot

/-- R96, R97: tray `n` is unmixed, and names each slot at most once and only slots of its own. -/
structure Tray.Sound (t : Tray) (n : TrayId) : Prop where
  unmixed : t.Unmixed
  once    : t.slots.Nodup
  own     : ∀ i ∈ t.slots, trayOf i = n

def State.TraysSound (s : State) : Prop := ∀ n : TrayId, (s.trays[n]).Sound n

/-! ## Attention (R170, R172) -/

/-- R170 between events: the notice state is SENT exactly while the summary is not empty. -/
def Attention.Settled (a : Attention) : Prop := a.first = none ∧ (a.notice = .sent ↔ a.isEmpty = false)

/-- R172: a mask holds enable indications only for the kinds that the master receives. -/
def Attention.MaskReceived (a : Attention) (p : Port) : Prop := a.mask &&& receivedMask p = a.mask

def State.AttentionSafe (s : State) : Prop := ∀ p, (s.att p).Settled ∧ (s.att p).MaskReceived p

/-! ## Bounds (R119, R177, R179) -/

/-- R177, R179: a FIFO holds at most 8 packets, and at most 8 counted replies wait unsent. -/
def LinkPort.Bounded (l : LinkPort) : Prop := l.fifo.length ≤ 8 ∧ l.unsent ≤ 8

/-- The bounds of both ports, and R119: a step log holds at most 64 entries. -/
def State.Bounded (s : State) : Prop := (∀ p, (s.link p).Bounded) ∧ ∀ i, (s.slot i).test.log.length ≤ 64

/-- What holds between events. -/
structure State.Invariant (s : State) : Prop where
  power     : s.PowerSafe
  trays     : s.TraysSound
  attention : s.AttentionSafe
  bounded   : s.Bounded
  settings  : s.SettingsInRange

/-! ## Order (R14, R73, R143 to R147) -/

/-- How many uses of plan `p` slot `i` holds: its run context and its start-on-ready plan (R73). -/
def Record.uses (r : Record) (p : PlanId) : Nat :=
  flag (r.run.map RunContext.plan == some p) + flag (r.startPlan == some p)

/-- R73, R74, R76: a run context is there exactly in RUNNING and HELD, a start-on-ready plan at most on the way to them, and a
plan's use count is the number of slots that name it. -/
structure State.PlansInOrder (s : State) : Prop where
  run   : ∀ i, (s.record i).run.isSome = true ↔ (s.record i).state = .running ∨ (s.record i).state = .held
  start : ∀ i, (s.record i).startPlan.isSome = true →
    (s.record i).state = .spinWait ∨ (s.record i).state = .spinning ∨ (s.record i).state = .identifying
  uses  : ∀ p : PlanId, s.plans[p].useCount = (allSlots.map fun i => (s.record i).uses p).sum

/-- R14: no two slots hold equal serials. -/
def State.SerialsDiffer (s : State) : Prop :=
  ∀ i j : SlotId, i ≠ j → ∀ d ∈ (s.record i).identity, ∀ e ∈ (s.record j).identity, d.serial ≠ e.serial

/-- R145, R147 to R150, for one lot: its entries are at most its capacity, at most 60. A FREE lot reads as one; an OPEN one
has room; a FULL one has none; the capacity of a CLOSED or COMPLETE one is its entry count; and of these three exactly the
COMPLETE one has every entry PICKED or LOST. -/
structure Lot.InOrder (l : Lot) : Prop where
  bound    : l.entries.length ≤ l.capacity ∧ l.capacity ≤ 60
  free     : l.state = .free → l = {}
  used     : l.state ≠ .free → 1 ≤ l.capacity
  room     : l.state = .open_ → l.entries.length < l.capacity
  whole    : l.state = .full ∨ l.state = .closed ∨ l.state = .complete → l.entries.length = l.capacity
  finished : l.state = .full ∨ l.state = .closed ∨ l.state = .complete →
    (l.state = .complete ↔ ∀ e ∈ l.entries, e.state = .picked ∨ e.state = .lost)

/-- R146: an entry that names its slot's current drive: UNPICKED or PICKING. -/
def LotEntry.active (e : LotEntry) : Bool := e.state == .unpicked || e.state == .picking

/-- The entries of lot `n` that name slot `i`'s current drive. -/
def State.activeEntries (s : State) (n : LotId) (i : SlotId) : List LotEntry :=
  s.lots[n].entries.filter fun e => e.slot == i && e.active

/-- R143 to R147: the lots are in order, and the opening order names each that is not FREE once; a pending queue holds each of
its slots once, and none while a lot of its bin is OPEN; and a slot is in a queue, or has an active entry, exactly as its
placement says, in its verdict's bin: in one queue, or once in one lot, in DONE while UNPICKED and in UNLOADING while
PICKING. -/
structure State.LotsInOrder (s : State) : Prop where
  lots    : ∀ n : LotId, (s.lots[n]).InOrder
  opening : s.opening.Nodup ∧ ∀ n : LotId, n ∈ s.opening ↔ s.lots[n].state ≠ .free
  queues  : ∀ b : Bin, s.binQueues[b.index].Nodup ∧ ∀ i, i ∈ s.binQueues[b.index] ↔
    (s.record i).placement = .pending ∧ (s.record i).verdict.map Verdict.bin = some b
  drained : ∀ n : LotId, s.lots[n].state = .open_ → s.binQueues[s.lots[n].bin.index] = []
  none    : ∀ (i : SlotId) (n : LotId), (s.record i).placement ≠ .lot n → s.activeEntries n i = []
  pending : ∀ i, (s.record i).placement = .pending → (s.record i).state = .done ∧ (s.record i).verdict.isSome = true
  placed  : ∀ (i : SlotId) (n : LotId), (s.record i).placement = .lot n →
    (s.record i).verdict.map Verdict.bin = some s.lots[n].bin ∧
    ((s.record i).state = .done ∧ (s.activeEntries n i).map LotEntry.state = [.unpicked] ∨
      (s.record i).state = .unloading ∧ (s.activeEntries n i).map LotEntry.state = [.picking])

/-- The laws of serials, plans, queues and lots that hold between events. -/
structure State.Orderly (s : State) : Prop where
  serials : s.SerialsDiffer
  plans   : s.PlansInOrder
  lots    : s.LotsInOrder

/-! ## Frames -/

/-- The slot tables agree but for slot `i`. -/
def SameOthers (s t : State) (i : SlotId) : Prop := ∀ j, j ≠ i → t.slot j = s.slot j

/-- The two states differ at most in the slot table, the causes and notices, and what the ports send. -/
def SameStores (s t : State) : Prop :=
  t = { s with slots := t.slots, attA := t.attA, attB := t.attB, linkA := t.linkA, linkB := t.linkB }

/-- The causes that port `p`'s master holds, and its mask, are the same. -/
def SameCauses (s t : State) (p : Port) : Prop :=
  (t.att p).slotSets = (s.att p).slotSets ∧ (t.att p).rackSet = (s.att p).rackSet ∧ (t.att p).mask = (s.att p).mask

/-! ## Causes (R164, R165) -/

/-- The mask bit of a cause's kind (R193). -/
def Cause.maskBit : Cause → Nat
  | .slot c _ => c.maskBit
  | .rack c => c.maskBit

/-- The master of port `p` has the kind of the cause enabled (R172). -/
def State.Enabled (s : State) (p : Port) (c : Cause) : Prop := (s.att p).mask.getLsbD c.maskBit = true

/-- The cause is pending for the master of port `p` (R165). -/
def State.Pending (s : State) (p : Port) : Cause → Prop
  | .slot c i => c ∈ (s.att p).slotSets[i]
  | .rack c => c ∈ (s.att p).rackSet

/-- Between `s` and `t` the master of port `p` has gained, of the causes `cs`, those whose kinds it has enabled, and no other
change has come to what it holds. -/
def Raised (s t : State) (p : Port) (cs : List Cause) : Prop :=
  ∀ c, t.Pending p c ↔ s.Pending p c ∨ c ∈ cs ∧ s.Enabled p c

/-! ## Queues -/

/-- Slot `i` has no admission entry, no claim and no waiting entry in its tray. -/
def State.Unlisted (s : State) (i : SlotId) : Prop :=
  (∀ e ∈ s.admission, e.slot ≠ i) ∧ i ∉ (s.trays[trayOf i]).slots

/-! ## Replies (R180, R181) -/

/-- The reply to a request of kind `k` with tag `tag` (R180, R181). -/
def replyTo (k : ReqKind) (tag : Word) (st : Status) (valid : Bool) (body : List Word) : Reply where
  tag := tag
  kind := BitVec.ofNat 8 k.code
  status := st
  done := st.done
  addressValid := valid
  body := body

/-- Between `s` and `t` port `p`'s outgoing path has gained, behind what it held, the reply `r` among its new packets. -/
def Answered (s t : State) (p : Port) (r : Reply) : Prop :=
  ∃ before after, (t.link p).out = (s.link p).out ++ before ++ OutPacket.reply r :: after

/-! ## Teardown (R17) -/

/-- The clock, the line and class settings, the grade table, the reset input, the origin and the queue of commands stay. -/
def SetupStays (s t : State) : Prop :=
  t.now = s.now ∧ t.classTable = s.classTable ∧ t.line = s.line ∧ t.timing = s.timing ∧ t.grade = s.grade ∧
    t.resetLow = s.resetLow ∧ t.origin = s.origin ∧ t.pending = s.pending

/-- Slots other than `i` keep their test records and all of the slot record but what an admission or a grant changes: a slot
in SPIN_WAIT may be SPINNING, and a step that waited may go on (R36, R37, R99). -/
def OthersMayStart (s t : State) (i : SlotId) : Prop :=
  ∀ j, j ≠ i → (t.slot j).test = (s.slot j).test ∧
    t.record j = { s.record j with
      state := (t.record j).state, phase := (t.record j).phase, run := (t.record j).run
      purpose := (t.record j).purpose, holdCause := (t.record j).holdCause } ∧
    ((t.record j).state = (s.record j).state ∨ (s.record j).state = .spinWait ∧ (t.record j).state = .spinning)

/-- R66, R182: the direct operation of slot `i`, waiting or in flight, if there is one, has been ended: its place is free, its
outstanding-reply record is gone, and port A has its reply, WRONG_STATE, unless that has the drop mark or the port is DOWN.
With no direct operation the outstanding records stay. -/
def DirectEnded (s t : State) (i : SlotId) : Prop :=
  ((s.dpe i).directOp = none → t.outstanding = s.outstanding) ∧
  ∀ d, (s.dpe i).directOp = some d → (t.dpe i).direct = none ∧
    ∀ o, s.outstanding.find? (fun o => o.slot == i) = some o →
      t.outstanding = (s.outstanding.filter fun o => o.slot != i) ∧
      (o.mark = false → (s.link .a).link = .up →
        Answered s t .a { replyTo .directOp o.tag .wrongState true d.words with direct := true, done := true })

/-- R17: slot `i` has given back all that it held, and other slots have moved only as what it gave back lets them. Of its
operations only the STANDBY of a power-down asked for next may be in flight. -/
structure TornDown (s t : State) (i : SlotId) : Prop where
  unlisted : t.Unlisted i
  absent   : (t.record i).run = none ∧ (t.record i).startPlan = none ∧ (t.record i).holdCause = none
  port     : (t.dpe i).direct = none ∧ (t.dpe i).pollPending = false ∧ (t.dpe i).misses = 0
  inFlight : (s.dpe i).port ≠ .off → ∀ f ∈ (t.dpe i).inFlight, f.requester = .sm ∧ f.op = .standby
  direct   : DirectEnded s t i
  plans    : ∀ p : PlanId, t.plans[p] = { s.plans[p] with useCount := s.plans[p].useCount - (s.record i).uses p }
  grading  : t.gradingQueue = (s.gradingQueue.filter fun e => e.slot != i) ∧
    t.engine = if ∃ e ∈ s.gradingQueue, e.slot = i then s.engine
      else s.engine.map fun g => if g.slot = i then { g with discard := true } else g
  others   : OthersMayStart s t i
  setup    : SetupStays s t

/-- R16: the states in which a reported fault makes a FAULT verdict: those from SPIN_WAIT to HELD, and POWERING_DOWN but for
purpose UNLOAD. -/
def Record.takesFault (r : Record) : Bool :=
  match r.state with
  | .spinWait | .spinning | .identifying | .ready | .running | .held => true
  | .poweringDown => r.purpose != some .unload
  | _ => false

/-- R18, R120: the test record of slot `i` once the step of its run context is logged with outcome `o`; that a HOLD step is
logged so too is read by inference (log entry 9). -/
def State.loggedTest (s : State) (i : SlotId) (o : StepOutcome) : TestRecord :=
  match (s.record i).run, s.stepEntry i with
  | some c, some e =>
    (s.slot i).test.append { step := c.step, kind := e.kind, outcome := o, credit := c.credit / 1000, at_ := s.now }
  | _, _ => (s.slot i).test

/-- R16, R17, R18, R21: fault `f` of slot `i` has been taken: all given back, the power off, the step logged, and the slot in
DONE with a FAULT verdict in bin REWORK, placed, with FAULT its only cause toward both masters. -/
structure FaultTaken (s t : State) (i : SlotId) (f : FaultCause) : Prop where
  torn    : TornDown s t i
  record  : (t.record i).state = .done ∧ (t.record i).phase = .off ∧ (t.record i).purpose = none
  kept    : (t.record i).cls = (s.record i).cls ∧ (t.record i).identity = (s.record i).identity ∧
    (t.record i).notifyCode = (s.record i).notifyCode
  verdict : (t.record i).verdict =
    some { kind := .fault, bin := .rework, faultCause := some f, plan := s.faultPlan i, at_ := s.now }
  placed  : (t.record i).placement = match s.openLotOf .rework with
    | some n => .lot n
    | none => .pending
  port    : (s.record i).phase ≠ .off → (t.dpe i).port = .off ∧ (t.dpe i).ready = false ∧ (t.dpe i).inFlight = none
  test    : (t.slot i).test = s.loggedTest i .fault
  causes  : ∀ p : Port, (t.att p).slotSets[i] = if (s.att p).mask.getLsbD 0 then [.fault] else []

/-- R16: the states in which a reported fault is taken: those from SPIN_WAIT to HELD, and POWERING_DOWN. -/
def Record.feelsFault (r : Record) : Bool := r.takesFault || decide (r.state = .poweringDown)

/-- R16, R23: a fault of slot `i` in a power-down for UNLOAD has been taken: the power is off, the slot in UNLOADING with its
timer running, no verdict made, and FAULT raised toward both masters. -/
structure FaultInUnload (s t : State) (i : SlotId) : Prop where
  record : t.record i = { s.record i with
    state := .unloading, phase := .off, purpose := none, holdCause := none, current := (t.record i).current }
  sm     : (t.slot i).sm = { (s.slot i).sm with
    declareTimer := none, unloadTimer := some (afterSec s.now s.line.unloadTime), carriedPlan := none, carriedVerdict := none }
  power  : (s.record i).phase ≠ .off → (t.slot i).pau = { surgeTimer := none, readyTimer := none } ∧ (t.dpe i).port = .off ∧
    (t.dpe i).ready = false ∧ (t.dpe i).inFlight = none ∧ (t.dpe i).patrolTimer = none ∧ DirectEnded s t i
  test   : (t.slot i).test = (s.slot i).test
  others : OthersMayStart s t i
  setup  : SetupStays s t
  causes : ∀ p, Raised s t p [.slot .fault i]

/-- R16: fault `f` of slot `i` has been taken, by the state and the purpose that the slot had. -/
def FaultEnds (s t : State) (i : SlotId) (f : FaultCause) : Prop :=
  if (s.record i).state = .poweringDown ∧ (s.record i).purpose = some .unload then FaultInUnload s t i else FaultTaken s t i f

/-- R19, R17: after a teardown slot `i` waits for its STANDBY: issued, with its timeout of 15 s, if the port was IDLE with
nothing in flight; else ready at the port, for the opening after the port reset. -/
def StandbyAsked (s t : State) (i : SlotId) : Prop :=
  if (s.dpe i).port = .idle ∧ (s.dpe i).inFlight = none then
    (t.dpe i).inFlight = some { op := .standby, tag := (s.dpe i).tag + 1, requester := .sm, issued := s.now
                                deadline := afterSec s.now 15 }
  else (t.dpe i).ownerOp = some { owner := .sm, op := .standby, timeout := 15 }

/-! ## Requests -/

/-- R192: the lengths of body that a request of the kind may have, before its owner looks at its words. -/
def ReqKind.fits (k : ReqKind) (n : Nat) : Bool :=
  match k with
  | .rackReset => n == 0
  | .setMask | .hold | .resume | .abort | .slotReset | .closeLot | .nextPick | .cancelPick | .withdraw | .requeue | .releaseLot =>
    n == 1
  | .retest | .declare | .unload => n == 2
  | .read => n == 3
  | .setTiming => n == 4
  | .setGradeTable => n == 5
  | .setLine | .openLot => n == 6
  | .directOp => n == 6
  | .setClass => n == 7
  | .loadPlan => n % 3 == 1
  | .start => 1 ≤ n

/-- The packet that a request command stands for: its port, its kind, its tag and its body (R190, R192). -/
def requestOf : Instr → Option (Port × ReqKind × Word × List Word)
  | .read p t c i n => some (p, .read, t, [c, i, n])
  | .setMask p t m => some (p, .setMask, t, [m])
  | .rackReset p t => some (p, .rackReset, t, [])
  | .loadPlan p t n es => some (p, .loadPlan, t, n :: es.flatMap stepList)
  | .start p t n ss => some (p, .start, t, n :: ss)
  | .hold p t i => some (p, .hold, t, [i])
  | .resume p t i => some (p, .resume, t, [i])
  | .abort p t i => some (p, .abort, t, [i])
  | .retest p t i n => some (p, .retest, t, [i, n])
  | .slotReset p t i => some (p, .slotReset, t, [i])
  | .directOp p t i k a b c d => some (p, .directOp, t, [i, k, a, b, c, d])
  | .setTiming p t m a b c => some (p, .setTiming, t, [m, a, b, c])
  | .setClass p t n a b c d e f => some (p, .setClass, t, [n, a, b, c, d, e, f])
  | .setGradeTable p t a b c d e => some (p, .setGradeTable, t, [a, b, c, d, e])
  | .declare p t i c => some (p, .declare, t, [i, c])
  | .setLine p t m a b c d e => some (p, .setLine, t, [m, a, b, c, d, e])
  | .openLot p t b c d e f g => some (p, .openLot, t, [b, c, d, e, f, g])
  | .closeLot p t n => some (p, .closeLot, t, [n])
  | .nextPick p t n => some (p, .nextPick, t, [n])
  | .cancelPick p t i => some (p, .cancelPick, t, [i])
  | .unload p t i f => some (p, .unload, t, [i, f])
  | .withdraw p t i => some (p, .withdraw, t, [i])
  | .requeue p t i => some (p, .requeue, t, [i])
  | .releaseLot p t n => some (p, .releaseLot, t, [n])
  | .packetReceive .. | .packetSent _ | .linkUp _ | .linkDown _ | .resetInputAssert | .resetInputRelease | .powerOnReset _
  | .presenceInputChange .. | .insertionRecognised _ | .removalRecognised _ | .declareTimeout _ | .unloadOverdue _
  | .currentConversion .. | .surgeTimerExpiry _ | .readyTimeout _ | .headWaitExpiry | .windowEntryAged
  | .driveReadyReport _ | .driveCompletion .. | .operationTimeout _ | .portLinkUp _ | .portResetTimeout _
  | .patrolTimerExpiry _ | .soakCreditReached _ | .offTimeReached _ | .stallTimerExpiry _ | .gradingCompletion => none

/-- Port `p` takes a request as it arrives: its link is UP, its FIFO is empty, and dispatch is not paused (R177, R179,
R187). -/
structure State.Clear (s : State) (p : Port) : Prop where
  up     : (s.link p).link = .up
  fifo   : (s.link p).fifo = []
  high   : s.resetLow = false
  unsent : (s.link p).unsent < 8

/-- R179, R170: the reply to a request of kind `k` goes to the tail of port `p`'s outgoing path, and the event ends. -/
def State.replies (s : State) (p : Port) (k : ReqKind) (tag : Word) (st : Status) (valid : Bool := true)
    (body : List Word := []) : State :=
  (s.pushOut p (.reply (replyTo k tag st valid body))).endEvent

/-- The command completes, in a state of which `P` holds. -/
def Completes (c : Instr) (s : State) (P : State → Prop) : Prop := ∃ t : State, exec c s = .next t ∧ P t

/-! ## Rack reset (section 10.5) -/

/-- R92, R93: the step phase that records the resume point of step `e`, held from phase `old`. A HOLD step shows a free value (log
entry 1); that a SWEEP without quiet flag shows ISSUE is the model's choice (log entry 37). -/
def HeldPhase (e : StepEntry) (old ph : StepPhase) : Prop :=
  match e with
  | .soak .. => ph = .waitBand
  | .sweep w => ph = if w.quiet then .waitGroup else .issue
  | .seekstorm .. => ph = .waitGroup
  | .powerCycle _ => ph = if old ∈ [StepPhase.off, .waitSpinup, .surge, .reidentify] then old else .issue
  | .notify _ | .hold | .repeat_ .. | .end_ => True

/-- R26, R46, R69, R95: slot `i` before and after a rack reset. -/
structure SlotAfterReset (s t : State) (i : SlotId) : Prop where
  /-- A RUNNING slot is HELD with cause RESET; a SPIN_WAIT slot may be admitted; any other keeps its state. -/
  state : match (s.record i).state with
    | .running => (t.record i).state = .held ∧ (t.record i).holdCause = some .reset
    | .spinWait => (t.record i).state = .spinWait ∨ (t.record i).state = .spinning
    | st => (t.record i).state = st ∧ (t.record i).holdCause = (s.record i).holdCause ∧
        (t.record i).purpose = (s.record i).purpose ∧ (t.record i).run = (s.record i).run
  /-- What the record keeps. -/
  kept : t.record i = { s.record i with
    state := (t.record i).state, holdCause := (t.record i).holdCause, phase := (t.record i).phase
    purpose := (t.record i).purpose, run := (t.record i).run }
  /-- The seek load of a slot that was RUNNING is released; other powered slots keep their phase. -/
  phase : (s.record i).state ≠ .spinWait → (t.record i).phase =
    if (s.record i).state = .running ∧ (s.record i).phase = .seek then .run else (s.record i).phase
  /-- Position, credit, repeat counters, cursor and retry flag are kept, and no hold waits; the phase records the resume point. -/
  run : (s.record i).state = .running → ∀ c, (s.record i).run = some c → ∃ ph, (t.record i).run =
    some { c with phase := ph, outSince := none, stallTimer := none, holdPending := none } ∧
      ∀ e, s.stepEntry i = some e → HeldPhase e c.phase ph
  /-- The SM's timers that restart, and R46: surge timers run on, the ready timer of a slot in SPINNING restarts, and that of a
  POWER_CYCLE step stops. -/
  timers : ((s.record i).state = .loaded → (t.slot i).sm.declareTimer = some (afterSec s.now s.line.declareTime)) ∧
    ((s.record i).state = .unloading → (t.slot i).sm.unloadTimer = some (afterSec s.now s.line.unloadTime)) ∧
    ((s.record i).state ≠ .spinWait → (t.slot i).pau.surgeTimer = (s.slot i).pau.surgeTimer ∧
      (t.slot i).pau.readyTimer = match (s.record i).state with
        | .spinning => some (afterSec s.now (s.classEntry i).tr)
        | .running => none
        | _ => (s.slot i).pau.readyTimer)
  /-- The port is in reset unless it is OFF, with nothing in flight or waiting but the SM's operation. -/
  port : (s.record i).state ≠ .spinWait →
    (t.dpe i).port = (if (s.dpe i).port = .off then .off else .resetting) ∧
    ((s.dpe i).port ≠ .off → (t.dpe i).inFlight = none) ∧ (t.dpe i).direct = none ∧ (t.dpe i).pollPending = false ∧
    (t.dpe i).misses = 0 ∧ (t.dpe i).ready = (s.dpe i).ready ∧ (t.dpe i).tag = (s.dpe i).tag ∧
    (t.dpe i).ownerOp = match (s.record i).state with
      | .identifying => some { owner := .sm, op := .identify, timeout := 10 }
      | .poweringDown => some { owner := .sm, op := .standby, timeout := 15 }
      | _ => none
  /-- R56, R69: the 5 s timer of a port reset that starts here, one in progress serving too, and the patrol timer, restarted with
  the length of R60 where patrol is active. -/
  portTimers : (s.record i).state ≠ .spinWait →
    (t.dpe i).resetTimer = (match (s.dpe i).port with
      | .off | .resetting => (s.dpe i).resetTimer
      | _ => some (afterSec s.now 5)) ∧
    (t.dpe i).patrolTimer =
      if (s.dpe i).ready = true ∧ (s.record i).state ∈ [SlotState.ready, .running, .held, .poweringDown] then
        some (afterSec s.now (if ∃ t ∈ (s.record i).temperature, s.timing.hot ≤ t then max 1 (s.timing.period / 2) else s.timing.period))
      else (s.dpe i).patrolTimer
  /-- The test record is kept. -/
  test : (t.slot i).test = (s.slot i).test

/-- R173: the first cause that a rack reset records: HELD of the lowest RUNNING slot, else TABLE_UNSET for a slot in GRADING. -/
def State.resetCause (s : State) : Option Cause :=
  match allSlots.find? fun i => decide ((s.record i).state = .running) with
  | some i => some (.slot .held i)
  | none =>
    if s.grade.set = false ∧ (allSlots.any fun i => decide ((s.record i).state = .grading)) then some (.rack .tableUnset) else none

/-- R46, step 2: the queue, the loads and the slots once the entries of the slots that go from RUNNING to HELD are withdrawn, a
head that this makes is tested (R33), and each of these slots has released its seek load in turn, with the test of the
head that follows (R37). That all are withdrawn before the first release is the model's choice (log entry 36). -/
def State.seekReleased (s : State) : State :=
  let runs := fun i : SlotId => decide ((s.record i).state = .running)
  let u := { s with admission := s.admission.filter fun e => !runs e.slot }
  let u := if ∃ e ∈ s.admission.head?, runs e.slot = true then u.newHead.testHead else u
  (allSlots.filter runs).foldl (fun u i =>
    if (u.record i).phase = .seek then
      State.testHead { u.setSlot i { u.slot i with record := { u.record i with phase := .run } } with
        load := u.load + (u.classEntry i).irun - (u.classEntry i).iseek }
    else u) u

/-- R47: the slots of the rebuilt admission queue, in ascending order: those that are then in SPIN_WAIT and held a SPINUP
entry. -/
def State.rebuilt (s : State) : List SlotId :=
  allSlots.filter fun i =>
    decide ((s.seekReleased.record i).state = .spinWait ∧ ∃ e ∈ s.admission, e.slot = i ∧ e.kind = .spinup)

/-- R46, step 3, R47, R35: the queue, the loads and the slots once the rebuilt queue has its head, and the head is tested. -/
def State.readmitted (s : State) : State :=
  State.testHead (State.newHead { s.seekReleased with
    admission := s.rebuilt.map fun i => { slot := i, kind := .spinup, arrival := s.now } })

/-- R46, R47, R38: the queue after a rack reset: the rebuilt one, with the reset's arrival time, less the first `k`, admitted in
turn and SPINNING as those are that the released loads let in; the head that is left fails its test, and its head-wait
timer runs. The window history is kept, with a start for each slot admitted. Queue, L and window, and the slots that were in
SPIN_WAIT, are those that the tests of R35 leave, so each slot admitted met them. -/
structure AdmissionAfterReset (s t : State) (k : Nat) : Prop where
  queue    : t.admission = (s.rebuilt.drop k).map fun i => { slot := i, kind := .spinup, arrival := s.now }
  admitted : ∀ i, (s.record i).state = .spinWait → (t.record i).state =
    if i ∈ s.rebuilt.take k ∨ (s.seekReleased.record i).state = .spinning then .spinning else .spinWait
  head     : ∀ e ∈ t.admission.head?, t.admissible e = false
  wait     : t.headWait = (if t.admission = [] then none else some (afterSec s.now 60)) ∧
    t.headSince = if t.admission = [] then 0 else s.now
  window   : t.window = (allSlots.filter fun i => decide ((s.record i).state = .spinWait ∧ (t.record i).state = .spinning)).foldl
    (fun starts _ => (starts.filter fun x => decide (age s.now x < s.line.window * 1000)) ++ [s.now]) s.window
  tested   : t.admission = s.readmitted.admission ∧ t.load = s.readmitted.load ∧ t.window = s.readmitted.window ∧
    t.headSince = s.readmitted.headSince ∧ t.headWait = s.readmitted.headWait
  slots    : ∀ i, (s.record i).state = .spinWait →
    t.record i = s.readmitted.record i ∧ (t.slot i).pau = (s.readmitted.slot i).pau ∧ ((t.record i).state = .spinning →
      (t.dpe i).port = .starting ∧ (t.dpe i).ready = false)

/-- R130: the rebuilt grading queue: the slots in GRADING in ascending order, with the plan that the GE held for each and the
reset's arrival time. A slot in GRADING without one, which no run reaches, has plan 0 (log entry 35). -/
def State.regradedQueue (s : State) : List GradingEntry :=
  (allSlots.filter fun i => decide ((s.record i).state = .grading)).map fun i =>
    { slot := i, plan := (s.gradingPlan i).getD 0, arrival := s.now }

/-- R106, R130, R143, R173, R188: the stores, the causes and the requests after a rack reset. -/
structure StoresAfterReset (s t : State) (o : Origin) : Prop where
  setup : t.now = s.now ∧ t.classTable = s.classTable ∧ t.line = s.line ∧ t.timing = s.timing ∧ t.grade = s.grade ∧
    t.plans = s.plans ∧ t.binQueues = s.binQueues ∧ t.lots = s.lots ∧ t.opening = s.opening ∧ t.pending = s.pending
  trays : ∀ n : TrayId, t.trays[n] = { holders := [], queue := [] }
  admission : ∃ k ≤ s.rebuilt.length, AdmissionAfterReset s t k
  grading : if s.grade.set then
      t.gradingQueue = s.regradedQueue.drop 1 ∧ t.engine = s.regradedQueue.head?.map fun e =>
        { slot := e.slot, plan := e.plan, revision := s.grade.revision, taken := s.now, discard := false
          copy := (s.slot e.slot).test }
    else t.gradingQueue = s.regradedQueue ∧ t.engine = none
  flag : t.unsetNotice = (!s.grade.set && !s.regradedQueue.isEmpty)
  causesA : (∀ i : SlotId, t.attA.slotSets[i] = if (s.record i).state = .running then [.held] else []) ∧
    t.attA.rackSet = if s.grade.set = false ∧ (∃ i : SlotId, (s.record i).state = .grading) then [.tableUnset] else []
  causesB : t.attB.isEmpty = true
  masks : t.attA.mask = receivedMask .a ∧ t.attB.mask = receivedMask .b
  notices : (t.attA.notice = .sent ↔ t.attA.isEmpty = false) ∧ t.attB.notice = .clear
  outstanding : t.outstanding = []
  fifos : ∀ p, (t.link p).fifo = [] ∧ (t.link p).link = (s.link p).link ∧ (t.link p).powerOnHeld = (s.link p).powerOnHeld
  origin : t.origin = o

end Sys2Proof.Machine
end

