-- ==== Sys2Proof/WellFormed.lean ====
section
/-! DEFINITION. What a command's operands can be on the hardware, where `Instr`'s types alone do not say it. -/

namespace Sys2Proof

/-- R52: a completion lists 0 to 8 fault condition codes. -/
def Completion.wf (c : Completion) : Bool := decide (c.faultCodes.length ≤ 8)

/-- The words of the request body that a request command carries, where its number varies (R192). -/
def Instr.bodyWords : Instr → Nat
  | .loadPlan _ _ _ entries => 1 + 3 * entries.length
  | .start _ _ _ slots => 1 + slots.length
  | _ => 0

/-- R190: the body of a packet is 0 to 256 words. The packet of a request command keeps that bound; a packet that
breaks it is what PACKET_RECEIVE's words can still be. -/
def Instr.bodyFits (i : Instr) : Bool := decide (i.bodyWords ≤ 256)

/-- A well-formed command: a completion's fault list and a request's body are within the packet and record formats. -/
def Instr.wf (i : Instr) : Bool :=
  i.bodyFits &&
    match i with
    | .driveCompletion _ c => c.wf
    | _ => true

end Sys2Proof
end

