-- ==== Sys2Proof/Certificates/Slice0/Obligations.lean ====
section
/-! DEFINITION. What is claimed of the part, for the provers: general claims first, then the attention unit, the links, and the
blocks in the order of their chapters. -/

open Sys2Proof Sys2Proof.Machine

/-! ## The queue of commands and the clock -/

/-- One step takes the command at the front of the queue and runs it with the queue's rest. -/
def Obligations.StepTakesFrontCommand : Prop :=
  ∀ (c : Instr) (rest : List Instr) (s : State), s.pending = c :: rest → step s = exec c { s with pending := rest }

/-- R79, R80, R83, R84: with no command waiting a step is one millisecond: rack time counts, each step whose credit accrues
gains one millisecond of it, saturating, and nothing else changes. Credit accrues in RUNNING alone: that of a SOAK while the
band is not OUT, that of a SWEEP while a segment is in flight, that of a SEEKSTORM while a storm is in flight and the band is not
OUT, and that of a POWER_CYCLE in OFF. That the step of an empty queue is the millisecond is the model's choice (log entry 3). -/
def Obligations.EmptyQueueCountsOneMillisecond : Prop :=
  ∀ s : State, s.pending = [] → ∃ t : State, step s = .next t ∧ t = { s with now := s.now + 1, slots := t.slots } ∧
    (∀ i : SlotId, t.slot i =
      if s.accrues i then
        { s.slot i with record := { s.record i with
            run := (s.record i).run.map fun c => { c with credit := min 4294967295 (c.credit + 1) } } }
      else s.slot i) ∧
    ∀ i : SlotId, s.accrues i = true ↔ (s.record i).state = .running ∧ ∃ c ∈ (s.record i).run, ∃ e ∈ s.stepEntry i,
      match e with
      | .soak .. => c.band ≠ .out
      | .sweep _ => c.phase = .waitOp
      | .seekstorm .. => c.phase = .waitOp ∧ c.band ≠ .out
      | .powerCycle _ => c.phase = .off
      | _ => False

/-! ## Reset and invariants -/

/-- R189, with R6, R27, R29, R43, R67, R68, R108, R122, R147, R173: what power-on reset leaves. That the pins and the queue of
commands stay is the model's choice (log entry 23). -/
def Obligations.PowerOnResetValues : Prop :=
  ∀ (straps : BitVec 24) (s : State), ∃ t : State, exec (.powerOnReset straps) s = .next t ∧ t.now = 0 ∧
    (∀ i : SlotId, t.slot i =
      { record := { state := if straps[i] then .empty else .disabled, presence := .absent, current := 0, phase := .off },
        sm := { raw := (s.slot i).sm.raw, rawSince := 0 }, dpe := { port := .off, tag := 0, ready := false }, test := {} }) ∧
    (∀ c : ClassId, t.classTable[c] =
      { isurge := 300, irun := 100, iseek := 150, trip := 400, ts := 15, tr := 30, capacity := 0, minRate := 0 }) ∧
    t.line = { budget := 0, window := 10, windowCount := 4, declareTime := 30, unloadTime := 120 } ∧
    t.timing = { period := 30, hot := 55, poll := 5 } ∧
    t.load = 0 ∧ t.admission = [] ∧ t.window = [] ∧ t.headWait = none ∧
    (∀ p : PlanId, t.plans[p] = { entries := [], useCount := 0 }) ∧
    (∀ n : TrayId, t.trays[n] = { holders := [], queue := [] }) ∧
    t.grade.set = false ∧ t.grade.revision = 0 ∧ t.gradingQueue = [] ∧ t.engine = none ∧ t.unsetNotice = false ∧
    (∀ b : Fin 7, t.binQueues[b] = []) ∧ (∀ n : LotId, t.lots[n].state = .free ∧ t.lots[n].entries = []) ∧ t.opening = [] ∧
    (∀ p : Port, (t.att p).mask = receivedMask p ∧ (t.att p).isEmpty = true ∧ (t.att p).notice = .clear ∧
      (t.link p).link = .down ∧ (t.link p).fifo = [] ∧ (t.link p).out = [] ∧ (t.link p).powerOnHeld = true) ∧
    t.outstanding = [] ∧ t.origin = .powerOn ∧ t.pending = s.pending

/-- The invariants of the part, and the laws of its serials, plans, queues and lots, hold after reset. The levels of the pins
after reset are the model's choice (log entry 2). -/
def Obligations.InvariantAtReset : Prop := State.reset.Invariant ∧ State.reset.Orderly

/-- R31, R32, R96, R97, R119, R170, R172, R177, R179 and the ranges of the settings, between events: the committed load is
the sum of the phase loads, an unpowered state has load phase OFF, a slot has at most one admission entry, no tray holds
quiet and storm claims together or names a slot twice, the notice state is SENT exactly while the summary is not empty,
the masks, FIFOs, unsent replies and step logs keep their bounds. Every step keeps all of it. -/
def Obligations.StepKeepsInvariant : Prop :=
  ∀ s t : State, s.Invariant → step s = .next t → t.Invariant

/-- R14, R73, R74, R143, R145 to R148, R150, between events: no two slots hold equal serials; a plan's use count is the number of
slots whose run context or start-on-ready plan names it, and a run context is there exactly in RUNNING and HELD; a lot's
entries are at most its capacity, at most 60, and its state says whether it has room, is full or is over; the opening order
names the lots in use; and each slot stands at most once among the pending queues and the UNPICKED and PICKING entries,
where its placement says, in its verdict's bin. Every step keeps all of it. -/
def Obligations.StepKeepsOrder : Prop :=
  ∀ s t : State, s.Orderly → step s = .next t → t.Orderly

/-! ## Encodings (chapter 11) -/

/-- R193, R191, R71: a step entry within its ranges reads back from its three words, in which every bit that its kind does not
use is 0; what any three words read as, none where the kind, the sweep mode or the storm pattern is outside its list, the
fields that the kind does not use ignored. A class entry and a SET grade table read back from their words; the five words
that SET_GRADE_TABLE carries give no revision. -/
def Obligations.RecordWordsRoundTrip : Prop :=
  (∀ e : StepEntry, e.clamp = e → (∀ target count, e = .repeat_ target count → target < 2 ^ 32) →
    readStep e.words = some e ∧
    (e.band = none → e.words.w0.getLsbD 27 = false ∧ e.words.w0.extractLsb 23 8 = 0) ∧
    (e.kind ≠ .sweep → e.words.w0.getLsbD 26 = false ∧ e.words.w2.extractLsb 11 0 = 0) ∧
    (e.kind ≠ .sweep → e.kind ≠ .seekstorm → e.words.w0.extractLsb 25 24 = 0) ∧
    (e.kind ≠ .sweep → e.kind ≠ .notify → e.kind ≠ .repeat_ → e.words.w0.extractLsb 7 0 = 0) ∧
    (e.kind ∈ [StepKind.notify, .hold, .end_] → e.words.w1 = 0) ∧
    (e.kind ∉ [StepKind.soak, .sweep, .seekstorm] → e.words.w2.extractLsb 31 12 = 0)) ∧
  (∀ w : StepWords,
    let kind := (w.w0.extractLsb 31 28).toNat
    let mode := (w.w0.extractLsb 25 24).toNat
    let low := w.w0.extractLsb 7 0
    let stall := (w.w2.extractLsb 31 12).toNat
    let band : Option Band := if w.w0.getLsbD 27 then
      some { lo := (w.w0.extractLsb 23 16).toInt, hi := (w.w0.extractLsb 15 8).toInt } else none
    readStep w = match kind with
      | 1 => some (.soak w.w1.toNat band stall)
      | 2 => if 1 < mode then none else some (.sweep
          { mode := if mode = 0 then .readVerify else .writeVerify, pattern := low, segment := w.w1.toNat
            quiet := w.w0.getLsbD 26, band := band, stall := stall, timeout := (w.w2.extractLsb 11 0).toNat })
      | 3 => if 1 < mode then none else some (.seekstorm w.w1.toNat (if mode = 0 then .random else .butterfly) band stall)
      | 4 => some (.powerCycle w.w1.toNat)
      | 5 => some (.notify low)
      | 6 => some .hold
      | 7 => some (.repeat_ w.w1.toNat low.toNat)
      | 8 => some .end_
      | _ => none) ∧
  (∀ e : ClassEntry, e.InRange →
    ∃ w0 w1 w2 w3 w4 w5 : Word, e.words = [w0, w1, w2, w3, w4, w5] ∧ readClass w0 w1 w2 w3 w4 w5 = e) ∧
  ∀ g : GradeTable, g.set = true → g.InRange →
    ∃ w0 w1 w2 w3 w4 w5 : Word, g.words = [w0, w1, w2, w3, w4, w5] ∧ (readTable w1 w2 w3 w4 w5).clamp = { g with revision := 0 }

/-- R190 to R192, R194, R177, R180, R181: the packets of a rack link, field by field. A received packet is read from its header and
body words if its check word is the CRC of R190 over them, and the header bits of no field are ignored. The words of a
well-formed request's packet read back as that packet, and receiving them is the request; while dispatch is paused it joins
the FIFO. A reply is sent with type 2, its kind, status, two indications and tag, done being set with OK, CLAMPED and TIMEOUT
where the reply follows R181's table; a notice with type 3, its rack time and its one body word; each with 0 in every bit of
no field, and its check word. A kind, status, cause or origin code is the position of its value in the manual's list. That a request row is the arrival of its packet is the model's choice (log entry 7). That
a packet joins the FIFO while the reset input is low is read by inference (log entry 19). -/
def Obligations.PacketsHaveTheirLayout : Prop :=
  let check := fun ws : List Word => ~~~ (ws.flatMap fun w => (List.range 32).map fun k => w.getLsbD (31 - k)).foldl
    (fun (crc : Word) bit => if crc.msb = bit then crc <<< 1 else crc <<< 1 ^^^ 0x04C11DB7) 0xFFFFFFFF
  let kinds := [ReqKind.read, .setMask, .rackReset, .loadPlan, .start, .hold, .resume, .abort, .retest, .slotReset, .directOp,
    .setTiming, .setClass, .setGradeTable, .declare, .setLine, .openLot, .closeLot, .nextPick, .cancelPick, .unload, .withdraw,
    .requeue, .releaseLot]
  let statuses := [Status.ok, .clamped, .timeout, .malformed, .notThisPort, .noSuch, .wrongState, .busy, .inUse, .inLot, .noRoom,
    .badPlan, .badTable]
  let sent := fun (ws : List Word) (type kind : Nat) (status : Status) (done valid : Bool) (second : Word) (body : List Word) =>
    let first := ws.getD 0 0
    ws = first :: second :: body ++ [check (first :: second :: body)] ∧ (first.extractLsb 31 28).toNat = type ∧
    (first.extractLsb 27 20).toNat = kind ∧ statuses[(first.extractLsb 19 16).toNat]? = some status ∧
    first.getLsbD 15 = done ∧ first.getLsbD 14 = valid ∧ first.extractLsb 13 9 = 0 ∧
    (first.extractLsb 8 0).toNat = body.length % 512
  (∀ (first second last : Word) (body : List Word), readPacket (first :: second :: body ++ [last]) =
    if last = check (first :: second :: body) then
      some { ptype := first.extractLsb 31 28, kind := first.extractLsb 27 20, len := first.extractLsb 8 0, tag := second, body := body }
    else none) ∧
  (∀ (c : Instr) (p : Port) (k : ReqKind) (tag : Word) (body : List Word), c.wf = true → requestOf c = some (p, k, tag, body) →
    readPacket (requestWords k tag body) = some
      { ptype := 1, kind := BitVec.ofNat 8 (kinds.idxOf k + 1), len := BitVec.ofNat 9 body.length, tag := tag, body := body } ∧
    (BitVec.ofNat 9 body.length).toNat = body.length ∧
    ∀ s : State, exec (.packetReceive p true (requestWords k tag body)) s = exec c s ∧
      ((s.link p).link = .up → (s.link p).fifo.length < 8 → (s.resetLow = true ∨ 8 ≤ (s.link p).unsent) →
        exec (.packetReceive p true (requestWords k tag body)) s =
          .next (s.modLink p fun l => { l with fifo := l.fifo ++ [requestPacket k tag body] }))) ∧
  (∀ (p : Port) (r : Reply),
    sent ((OutPacket.reply r).words p) 2 r.kind.toNat r.status r.done r.addressValid r.tag r.body) ∧
  (∀ (k : ReqKind) (tag : Word) (st : Status) (valid : Bool) (body : List Word),
    sent ((replyTo k tag st valid body).words) 2 (kinds.idxOf k + 1) st (decide (st ∈ [.ok, .clamped, .timeout])) valid tag body) ∧
  (∀ (p : Port) (at_ : RackTime) (cause : Cause),
    let ws := (OutPacket.notice (.attention at_ cause)).words p
    let w := ws.getD 2 0
    let code := (w.extractLsb 31 24).toNat
    let target := (w.extractLsb 7 0).toNat
    sent ws 3 1 .ok false false at_ [w] ∧ w.extractLsb 23 8 = 0 ∧
    match cause with
    | .slot c i => [none, some SlotCause.fault, some .removed, some .mispick, some .held, some .verdict, some .notify, some .present,
        some .unloadOverdue][code]? = some (some c) ∧ target = i.val
    | .rack .overBudget => code = 9 ∧ target = 0
    | .rack .admissionStalled => code = 10 ∧ target = 0
    | .rack (.lotFull n) => code = 11 ∧ target = n.val
    | .rack (.lotComplete n) => code = 12 ∧ target = n.val
    | .rack .tableUnset => code = 13 ∧ target = 0
    | .rack .linkError => code = 14 ∧ target = if p = .a then 0 else 1) ∧
  ∀ (p : Port) (at_ : RackTime) (o : Origin),
    let ws := (OutPacket.notice (.resetDone at_ o)).words p
    let w := ws.getD 2 0
    sent ws 3 2 .ok false false at_ [w] ∧ w.extractLsb 31 2 = 0 ∧
    [Origin.portA, .portB, .resetInput, .powerOn][(w.extractLsb 1 0).toNat]? = some o

/-! ## The Attention Unit (chapter 9) -/

/-- R164, R165, R170 to R172: a cause raised toward a master is recorded once if its kind is enabled, and is not recorded if it
is disabled; no other cause of either master changes. An event that records a first cause in an empty summary hands the LI
one ATTENTION with the event's rack time and that cause; one that records a cause beside others, or none, hands it nothing. That
the notice is held for a DOWN port too while the reset input is low is read by inference (log entry 18). -/
def Obligations.CausesAreRecordedAndNoticed : Prop :=
  (∀ (s : State) (p : Port) (c : Cause),
     (s.Enabled p c → (s.raiseTo p c).Pending p c) ∧
     (¬ s.Enabled p c → s.raiseTo p c = s) ∧
     (∀ d : Cause, d ≠ c → ((s.raiseTo p c).Pending p d ↔ s.Pending p d)) ∧
     (∀ q : Port, q ≠ p → (s.raiseTo p c).att q = s.att q) ∧
     (((s.att p).rackSet.Nodup ∧ ∀ i : SlotId, (s.att p).slotSets[i].Nodup) →
       ((s.raiseTo p c).att p).rackSet.Nodup ∧ ∀ i : SlotId, ((s.raiseTo p c).att p).slotSets[i].Nodup)) ∧
  (∀ (s : State) (p : Port) (c : Cause), s.AttentionSafe → s.Enabled p c →
     s.endEvent = s ∧
     ((s.att p).isEmpty = true → ((s.raiseTo p c).endEvent.att p).notice = .sent ∧
       (s.raiseTo p c).endEvent.link p = if s.resetLow then { s.link p with held := (s.link p).held ++ [.attention s.now c] }
         else if (s.link p).link = .up then { s.link p with out := (s.link p).out ++ [.notice (.attention s.now c)] }
         else s.link p) ∧
     ((s.att p).isEmpty = false → (s.raiseTo p c).endEvent.link p = s.link p ∧ ((s.raiseTo p c).endEvent.att p).notice = .sent) ∧
     ∀ q : Port, q ≠ p → (s.raiseTo p c).endEvent.att q = s.att q ∧ (s.raiseTo p c).endEvent.link q = s.link q)

/-- R172: SET_MASK keeps the enable indications of the kinds that the master receives and drops every pending cause whose
kind goes from enabled to disabled; the notice state is CLEAR if the summary has become empty. That bits above 12 are
ignored is the model's choice (log entry 22). -/
def Obligations.SetMaskDropsDisabledCauses : Prop :=
  ∀ (s : State) (p : Port) (tag mask : Word), s.Clear p → s.AttentionSafe →
    let new := mask.setWidth 13 &&& receivedMask p
    let kept := fun bit : Nat => (s.att p).mask.getLsbD bit = false ∨ new.getLsbD bit = true
    Completes (.setMask p tag mask) s fun t =>
      (t.att p).mask = new ∧ (∀ i : SlotId, (t.att p).slotSets[i] = (s.att p).slotSets[i].filter fun c => decide (kept c.maskBit)) ∧
      (t.att p).rackSet = (s.att p).rackSet.filter (fun c => decide (kept c.maskBit)) ∧ (t.att p).Settled ∧
      t = (s.modAtt p fun _ => t.att p).pushOut p
        (.reply (replyTo .setMask tag (if mask.setWidth 13 = new then .ok else .clamped) true [new.setWidth 32]))

/-! ## READ (R183 to R185) -/

/-- R183 to R185, R167, R168: a READ within a collection other than the lot entries returns the count and the words of the
records from the index, CLAMPED when fewer than asked fit or are left; a READ of slot records clears those slots'
causes for the reading master, one of the rack status the rack causes, and nothing else changes. A collection number beyond
the 14 makes a READ MALFORMED; an index outside the numbering is refused NO_SUCH, both with the address-valid indication
clear. Of the lot entries, bits 15 to 8 of the index word are the lot and bits 7 to 0 the position: NO_SUCH with the
indication clear beyond lot 7 or position 59, with it set at or beyond the lot's entry count, else the entries from there to
the end of the lot. None of these clears a cause. That a count of 0 clears none, and that the index of another collection is
read from the low 8 bits of its word, are read by inference (log entries 20, 28). -/
def Obligations.ReadIsJudgedAndReturnsRecords : Prop :=
  (∀ (s : State) (p : Port) (tag collection index count : Word) (c : Collection), s.Clear p → s.AttentionSafe →
     Collection.ofCode (small collection) = some c → c ≠ .lotEntries → small index < (s.records p 0 c).length →
     let asked := bits count 0 16
     let n := min asked (min ((s.records p 0 c).length - small index) (255 / c.width))
     Completes (.read p tag collection index count) s fun t =>
       (∀ i : SlotId, (t.att p).slotSets[i] =
         if c = .slotRecord ∧ small index ≤ i.val ∧ i.val < small index + n then [] else (s.att p).slotSets[i]) ∧
       (t.att p).rackSet = (if c = .rackStatus ∧ n ≠ 0 then [] else (s.att p).rackSet) ∧
       (t.att p).mask = (s.att p).mask ∧ (t.att p).Settled ∧
       t = (s.modAtt p fun _ => t.att p).pushOut p (.reply (replyTo .read tag (if n < asked then .clamped else .ok) true
         (BitVec.ofNat 32 n :: (((s.records p 0 c).drop (small index)).take n).flatten)))) ∧
  (∀ (s : State) (p : Port) (tag collection index count : Word), s.Clear p →
     let read := exec (.read p tag collection index count) s
     let asked := bits count 0 16
     match Collection.ofCode (small collection) with
     | none => 14 ≤ small collection ∧ read = .next (s.replies p .read tag .malformed false)
     | some .lotEntries =>
       (8 ≤ bits index 8 8 ∨ 60 ≤ bits index 0 8 → read = .next (s.replies p .read tag .noSuch false)) ∧
       ∀ n : LotId, bits index 8 8 = n.val → bits index 0 8 < 60 →
         let es := s.lots[n].entries.drop (bits index 0 8)
         let k := min asked (min es.length 42)
         read = .next (if es = [] then s.replies p .read tag .noSuch true
           else s.replies p .read tag (if k < asked then .clamped else .ok) true
             (BitVec.ofNat 32 k :: ((es.take k).map LotEntry.words).flatten))
     | some c => (s.records p 0 c).length ≤ small index → read = .next (s.replies p .read tag .noSuch false))

/-- R193, R191, R5, R74: the records of one slot that READ returns, field by field: the slot record, with the causes of the
reading master, the test record and the step log; every bit and list place not used is 0. Bits are numbered as R193 numbers
them, and an enumerated field is the position of its value in R191's list. The placement lot of a placement other than LOT is
read as one of the bits not used (log entry 40). -/
def Obligations.SlotRecordsHaveTheirLayout : Prop :=
  ∀ (s : State) (p : Port) (i : SlotId),
    let r := s.record i
    let test := (s.slot i).test
    let byte := fun (ws : List Word) (k : Nat) => (ws.getD (k / 4) 0).extractLsb' (24 - 8 * (k % 4)) 8
    let small := fun n : Option Nat => (n.map fun n => n + 1).getD 0
    (match (s.records p 0 .slotRecord)[i.val]? with
      | none => False
      | some ws =>
        let w := fun k : Nat => ws.getD k 0
        ws.length = 39 ∧
        [SlotState.disabled, .empty, .loaded, .spinWait, .spinning, .identifying, .ready, .running, .held, .poweringDown,
          .grading, .done, .unloading][((w 0).extractLsb 31 28).toNat]? = some r.state ∧
        ((w 0).extractLsb 27 26).toNat = (match r.state, r.purpose with
          | .running, _ | .held, _ | .grading, _ | .poweringDown, some .grade | .poweringDown, some .abort => 1
          | .unloading, _ | .poweringDown, some .unload => 2
          | _, _ => 0) ∧
        (w 0).getLsbD 25 = decide (r.presence = .present) ∧
        ((w 0).extractLsb 24 21).toNat = small (r.cls.map Fin.val) ∧
        [LoadPhase.off, .surge, .run, .seek][((w 0).extractLsb 20 19).toNat]? = some r.phase ∧
        [none, some Purpose.grade, some .abort, some .unload][((w 0).extractLsb 18 17).toNat]? = some r.purpose ∧
        [none, some HoldCause.planHold, some .masterHold, some .thermalStall, some .reset][((w 0).extractLsb 16 14).toNat]? =
          some r.holdCause ∧
        (((w 0).extractLsb 13 12).toNat, ((w 0).extractLsb 11 9).toNat) = (match r.placement with
          | .none => (0, 0)
          | .pending => (1, 0)
          | .lot n => (2, n.val)) ∧
        ((w 0).extractLsb 8 5).toNat = small (r.startPlan.map Fin.val) ∧
        (w 0).getLsbD 4 = r.identity.isSome ∧ (w 0).getLsbD 3 = r.temperature.isSome ∧ (w 0).getLsbD 2 = r.run.isSome ∧
        (w 0).getLsbD 1 = r.verdict.isSome ∧ (w 0).getLsbD 0 = r.notifyCode.isSome ∧
        ((w 1).extractLsb 31 16).toNat = r.current % 65536 ∧
        (w 1).extractLsb 15 8 = (r.temperature.map (BitVec.ofInt 8)).getD 0 ∧ (w 1).extractLsb 7 0 = r.notifyCode.getD 0 ∧
        (match r.identity with
          | none => ∀ k : Fin 19, w (2 + k) = 0
          | some d => (∀ k : Fin 20, byte ws (8 + k) = d.serial[k]) ∧ (∀ k : Fin 40, byte ws (28 + k) = d.model[k]) ∧
              (∀ k : Fin 8, byte ws (68 + k) = d.firmware[k]) ∧
              (w 19).toNat = d.capacity.toNat / 2 ^ 32 ∧ (w 20).toNat = d.capacity.toNat % 2 ^ 32) ∧
        (match r.verdict with
          | none => w 21 = 0 ∧ w 22 = 0 ∧ w 23 = 0
          | some v =>
            [VerdictKind.graded, .fault, .aborted][((w 21).extractLsb 31 30).toNat]? = some v.kind ∧
            [Bin.s1, .s2, .s3, .s4, .s5, .reject, .rework][((w 21).extractLsb 29 27).toNat]? = some v.bin ∧
            (w 21).getLsbD 26 = v.flags.incomplete ∧ (w 21).getLsbD 25 = v.flags.demoted ∧
            (w 21).getLsbD 24 = v.flags.hardLimit ∧ (w 21).getLsbD 23 = v.flags.seekLimit ∧
            [none, some FaultCause.overcurrent, some .noReady, some .classMismatch, some .badCapacity, some .duplicateSerial,
              some .swapped, some .opTimeout, some .driveFault, some .unresponsive, some .portDead][
                ((w 21).extractLsb 22 19).toNat]? = some v.faultCause ∧
            ((w 21).extractLsb 18 15).toNat = small (v.plan.map Fin.val) ∧ (w 21).getLsbD 14 = v.score.isSome ∧
            (w 21).getLsbD 13 = v.revision.isSome ∧ (w 21).extractLsb 12 0 = 0 ∧
            ((w 22).extractLsb 31 16).toNat = v.score.getD 0 % 65536 ∧ (w 22).extractLsb 15 0 = v.revision.getD 0 ∧
            w 23 = v.at_) ∧
        (match r.run with
          | none => ∀ k : Fin 14, w (24 + k) = 0
          | some c =>
            ((w 24).extractLsb 31 29).toNat = c.plan.val ∧ ((w 24).extractLsb 28 24).toNat = c.step % 32 ∧
            [StepPhase.waitGroup, .waitLoad, .issue, .waitOp, .waitBand, .off, .waitSpinup, .surge, .reidentify][
              ((w 24).extractLsb 23 20).toNat]? = some c.phase ∧
            [BandState.in_, .out, .none][((w 24).extractLsb 19 18).toNat]? = some c.band ∧
            [none, some ClaimKind.quiet, some .storm][((w 24).extractLsb 17 16).toNat]? =
              some ((s.trays[trayOf i].holders.find? fun h => h.slot == i).map Holder.kind) ∧
            (w 24).getLsbD 15 = decide (r.phase = .seek) ∧ (w 24).getLsbD 14 = c.retry ∧
            [none, some HoldPending.masterHold, some .thermalStall][((w 24).extractLsb 13 12).toNat]? = some c.holdPending ∧
            (w 24).getLsbD 11 = c.outSince.isSome ∧ (w 24).extractLsb 10 0 = 0 ∧
            w 25 = c.stepStart ∧ (w 26).toNat = c.credit % 2 ^ 32 ∧ w 27 = c.outSince.getD 0 ∧
            (w 28).toNat = c.cursor / 2 ^ 32 % 65536 ∧ (w 29).toNat = c.cursor % 2 ^ 32 ∧
            ∀ k : Fin 32, (byte ws (120 + k)).toNat = c.repeats[k] % 256) ∧
        ∀ k : Fin 32, (w 38).getLsbD k = (match [SlotCause.fault, .removed, .mispick, .held, .verdict, .notify, .present,
            .unloadOverdue][k.val]? with
          | some c => decide (c ∈ (s.att p).slotSets[i])
          | none => false)) ∧
    (match (s.records p 0 .testRecord)[i.val]? with
      | none => False
      | some ws =>
        let w := fun k : Nat => ws.getD k 0
        ws.length = 66 ∧
        (∀ z : Fin 16, let x := test.zones[z]
          (w (4 * z)).toNat = x.covered / 2 ^ 32 % 65536 ∧ (w (4 * z + 1)).toNat = x.covered % 2 ^ 32 ∧
          ((w (4 * z + 2)).extractLsb 31 16).toNat = x.hard % 65536 ∧ ((w (4 * z + 2)).extractLsb 15 0).toNat = x.soft % 65536 ∧
          ((w (4 * z + 3)).extractLsb 31 24).toNat = x.slow % 256 ∧ (w (4 * z + 3)).extractLsb 23 1 = 0 ∧
          (w (4 * z + 3)).getLsbD 0 = x.swept) ∧
        (w 64).toNat = test.seeksDone % 2 ^ 32 ∧ ((w 65).extractLsb 31 16).toNat = test.seekErrors % 65536 ∧
        (w 65).extractLsb 15 8 = 0 ∧ ((w 65).extractLsb 7 0).toNat = test.thermal % 256) ∧
    (match (s.records p 0 .stepLog)[i.val]? with
      | none => False
      | some ws =>
        let w := fun k : Nat => ws.getD k 0
        ws.length = 193 ∧ (w 0).getLsbD 31 = test.wrapped ∧ (w 0).extractLsb 30 7 = 0 ∧
        ((w 0).extractLsb 6 0).toNat = test.log.length % 128 ∧
        ∀ k : Fin 64, match test.log[k.val]? with
          | none => w (1 + 3 * k) = 0 ∧ w (2 + 3 * k) = 0 ∧ w (3 + 3 * k) = 0
          | some e =>
            ((w (1 + 3 * k)).extractLsb 31 27).toNat = e.step % 32 ∧
            [none, some StepKind.soak, some .sweep, some .seekstorm, some .powerCycle, some .notify, some .hold, some .repeat_,
              some .end_][((w (1 + 3 * k)).extractLsb 26 23).toNat]? = some (some e.kind) ∧
            [StepOutcome.done, .heldExit, .aborted, .fault][((w (1 + 3 * k)).extractLsb 22 21).toNat]? = some e.outcome ∧
            (w (1 + 3 * k)).extractLsb 20 0 = 0 ∧ (w (2 + 3 * k)).toNat = e.credit % 2 ^ 32 ∧ w (3 + 3 * k) = e.at_)

/-- R193, R191, R166, R174, R186: the other records that READ returns, field by field: plans, class entries, the grade table,
the admission queue with the window history, trays, the grading queue, bin queues, lot headers and lot entries, and for the
reading master the attention summary and the rack status; every bit and list place not used is 0. That a tray's first holder
is in bits 31 to 24 of word 1, and that a lot's position in the opening order counts from 0, are the model's choices (log
entries 38, 39). -/
def Obligations.RackRecordsHaveTheirLayout : Prop :=
  ∀ (s : State) (p : Port),
    let byte := fun (ws : List Word) (k : Nat) => (ws.getD (k / 4) 0).extractLsb' (24 - 8 * (k % 4)) 8
    let rackBits := fun w : Word => ∀ k : Fin 32, w.getLsbD k = decide (∃ c ∈ (s.att p).rackSet, k.val = match c with
      | .overBudget => 0
      | .admissionStalled => 1
      | .tableUnset => 2
      | .linkError => 3
      | .lotFull n => 16 + n.val
      | .lotComplete n => 24 + n.val)
    (∀ n : PlanId, match (s.records p 0 .plan)[n.val]? with
      | none => False
      | some ws =>
        let w := fun k : Nat => ws.getD k 0
        let q := s.plans[n]
        ws.length = 97 ∧ (w 0).getLsbD 31 = decide (q.entries ≠ []) ∧ (w 0).extractLsb 30 22 = 0 ∧
        ((w 0).extractLsb 21 16).toNat = q.entries.length % 64 ∧ (w 0).extractLsb 15 5 = 0 ∧
        ((w 0).extractLsb 4 0).toNat = q.useCount % 32 ∧
        ∀ k : Fin 32, (w (1 + 3 * k), w (2 + 3 * k), w (3 + 3 * k)) =
          ((q.entries[k.val]?).map fun e => (e.words.w0, e.words.w1, e.words.w2)).getD (0, 0, 0)) ∧
    (∀ n : ClassId, match (s.records p 0 .classTable)[n.val]? with
      | none => False
      | some ws =>
        let w := fun k : Nat => ws.getD k 0
        let e := s.classTable[n]
        ws.length = 6 ∧ ((w 0).extractLsb 31 16).toNat = e.isurge % 65536 ∧ ((w 0).extractLsb 15 0).toNat = e.irun % 65536 ∧
        ((w 1).extractLsb 31 16).toNat = e.iseek % 65536 ∧ ((w 1).extractLsb 15 0).toNat = e.trip % 65536 ∧
        ((w 2).extractLsb 31 16).toNat = e.ts % 65536 ∧ ((w 2).extractLsb 15 0).toNat = e.tr % 65536 ∧
        (w 3).toNat = e.capacity / 2 ^ 32 % 65536 ∧ (w 4).toNat = e.capacity % 2 ^ 32 ∧ (w 5).toNat = e.minRate % 2 ^ 32) ∧
    (match s.records p 0 .gradeTable with
      | [ws] =>
        let w := fun k : Nat => ws.getD k 0
        let g := s.grade
        let t := fun k : Nat => g.thresholds.getD k 0 % 65536
        ws.length = 6 ∧ (w 0).getLsbD 31 = g.set ∧ (w 0).extractLsb 30 16 = 0 ∧ (w 0).extractLsb 15 0 = g.revision ∧
        ((w 1).extractLsb 31 24).toNat = g.wH % 256 ∧ ((w 1).extractLsb 23 16).toNat = g.wS % 256 ∧
        ((w 1).extractLsb 15 8).toNat = g.wT % 256 ∧ ((w 1).extractLsb 7 0).toNat = g.binCount % 256 ∧
        ((w 2).extractLsb 31 16).toNat = g.hardLimit % 65536 ∧ ((w 2).extractLsb 15 0).toNat = g.seekLimit % 65536 ∧
        ((w 3).extractLsb 31 16).toNat = g.slowLimit % 65536 ∧ ((w 3).extractLsb 15 0).toNat = t 0 ∧
        ((w 4).extractLsb 31 16).toNat = t 1 ∧ ((w 4).extractLsb 15 0).toNat = t 2 ∧
        ((w 5).extractLsb 31 16).toNat = t 3 ∧ ((w 5).extractLsb 15 0).toNat = t 4
      | _ => False) ∧
    (match s.records p 0 .admission with
      | [ws] =>
        let w := fun k : Nat => ws.getD k 0
        ws.length = 58 ∧ ((w 0).extractLsb 31 24).toNat = s.admission.length % 256 ∧
        ((w 0).extractLsb 23 16).toNat = s.window.length % 256 ∧ (w 0).extractLsb 15 0 = 0 ∧
        w 1 = (if s.admission = [] then 0 else s.headSince) ∧
        (∀ k : Fin 24, match s.admission[k.val]? with
          | none => w (2 + 2 * k) = 0 ∧ w (3 + 2 * k) = 0
          | some e => ((w (2 + 2 * k)).extractLsb 31 27).toNat = e.slot.val ∧
            (w (2 + 2 * k)).getLsbD 26 = decide (e.kind = .seek) ∧
            [SlotState.disabled, .empty, .loaded, .spinWait, .spinning, .identifying, .ready, .running, .held, .poweringDown,
              .grading, .done, .unloading][((w (2 + 2 * k)).extractLsb 25 22).toNat]? = some (s.record e.slot).state ∧
            (w (2 + 2 * k)).extractLsb 21 0 = 0 ∧ w (3 + 2 * k) = e.arrival) ∧
        ∀ k : Fin 8, w (50 + k) = s.window.getD k 0
      | _ => False) ∧
    (∀ n : TrayId, match (s.records p 0 .tray)[n.val]? with
      | none => False
      | some ws =>
        let w := fun k : Nat => ws.getD k 0
        let t := s.trays[n]
        let members := allSlots.filterMap fun j => t.holders.find? fun h => h.slot == j
        let count := fun k : ClaimKind => (t.holders.filter fun h => h.kind == k).length % 16
        ws.length = 19 ∧ ((w 0).extractLsb 31 28).toNat = count .quiet ∧ ((w 0).extractLsb 27 24).toNat = count .storm ∧
        ((w 0).extractLsb 23 20).toNat = t.holders.length % 16 ∧ ((w 0).extractLsb 19 16).toNat = t.queue.length % 16 ∧
        (w 0).extractLsb 15 0 = 0 ∧
        (∀ k : Fin 8, (byte ws (4 + k)).toNat =
          ((members[k.val]?).map fun h => h.slot.val * 8 + if h.kind = .storm then 1 else 0).getD 0) ∧
        ∀ k : Fin 8, match t.queue[k.val]? with
          | none => w (3 + 2 * k) = 0 ∧ w (4 + 2 * k) = 0
          | some e => ((w (3 + 2 * k)).extractLsb 31 27).toNat = e.slot.val ∧
            (w (3 + 2 * k)).getLsbD 26 = decide (e.kind = .storm) ∧ (w (3 + 2 * k)).extractLsb 25 0 = 0 ∧
            w (4 + 2 * k) = e.arrival) ∧
    (match s.records p 0 .grading with
      | [ws] =>
        let w := fun k : Nat => ws.getD k 0
        ws.length = 51 ∧ ((w 0).extractLsb 20 16).toNat = s.gradingQueue.length % 32 ∧ (w 0).extractLsb 15 0 = 0 ∧
        (match s.engine with
          | none => (w 0).extractLsb 31 21 = 0 ∧ w 1 = 0 ∧ w 2 = 0
          | some g => (w 0).getLsbD 31 = true ∧ (w 0).getLsbD 30 = g.discard ∧ (w 0).getLsbD 29 = false ∧
            ((w 0).extractLsb 28 24).toNat = g.slot.val ∧ ((w 0).extractLsb 23 21).toNat = g.plan.val ∧
            (w 1).toNat = g.revision.toNat ∧ w 2 = g.taken) ∧
        ∀ k : Fin 24, match s.gradingQueue[k.val]? with
          | none => w (3 + 2 * k) = 0 ∧ w (4 + 2 * k) = 0
          | some e => ((w (3 + 2 * k)).extractLsb 31 27).toNat = e.slot.val ∧
            ((w (3 + 2 * k)).extractLsb 26 24).toNat = e.plan.val ∧ (w (3 + 2 * k)).extractLsb 23 0 = 0 ∧
            w (4 + 2 * k) = e.arrival
      | _ => False) ∧
    (∀ b : Fin 7, match (s.records p 0 .binQueue)[b.val]? with
      | none => False
      | some ws =>
        let w := fun k : Nat => ws.getD k 0
        let q := s.binQueues[b]
        ws.length = 7 ∧ ((w 0).extractLsb 31 29).toNat = b.val ∧ (w 0).extractLsb 28 5 = 0 ∧
        ((w 0).extractLsb 4 0).toNat = q.length % 32 ∧
        ∀ k : Fin 24, (byte ws (4 + k)).toNat = ((q[k.val]?).map Fin.val).getD 0) ∧
    (∀ n : LotId, match (s.records p 0 .lotHeader)[n.val]? with
      | none => False
      | some ws =>
        let w := fun k : Nat => ws.getD k 0
        let l := s.lots[n]
        let count := fun st : EntryState => (l.entries.filter fun e => e.state == st).length % 256
        ws.length = 7 ∧
        [LotState.free, .open_, .full, .closed, .complete][((w 0).extractLsb 31 29).toNat]? = some l.state ∧
        [Bin.s1, .s2, .s3, .s4, .s5, .reject, .rework][((w 0).extractLsb 28 26).toNat]? = some l.bin ∧
        ((w 0).extractLsb 25 20).toNat = l.capacity % 64 ∧ ((w 0).extractLsb 19 14).toNat = l.entries.length % 64 ∧
        ((w 0).extractLsb 13 10).toNat = (((s.opening.findIdx? fun m => m == n).map fun k => k + 1).getD 0) % 16 ∧
        (w 0).extractLsb 9 0 = 0 ∧ w 1 = l.opened ∧ (∀ k : Fin 16, byte ws (8 + k) = l.label[k]) ∧
        ((w 6).extractLsb 31 24).toNat = count .unpicked ∧ ((w 6).extractLsb 23 16).toNat = count .picking ∧
        ((w 6).extractLsb 15 8).toNat = count .picked ∧ ((w 6).extractLsb 7 0).toNat = count .lost) ∧
    (∀ (n : LotId) (k : Fin 60), match s.lots[n].entries[k.val]?, (s.records p n .lotEntries)[k.val]? with
      | none, none => True
      | some e, some ws =>
        let w := fun k : Nat => ws.getD k 0
        ws.length = 6 ∧ (∀ k : Fin 20, byte ws k = e.serial[k]) ∧ ((w 5).extractLsb 31 27).toNat = e.slot.val ∧
        [VerdictKind.graded, .fault, .aborted][((w 5).extractLsb 26 25).toNat]? = some e.kind ∧
        [EntryState.unpicked, .picking, .picked, .lost][((w 5).extractLsb 24 23).toNat]? = some e.state ∧
        (w 5).getLsbD 22 = e.score.isSome ∧ (w 5).extractLsb 21 16 = 0 ∧
        ((w 5).extractLsb 15 0).toNat = e.score.getD 0 % 65536
      | _, _ => False) ∧
    (match s.records p 0 .summary with
      | [ws] =>
        let w := fun k : Nat => ws.getD k 0
        ws.length = 5 ∧
        (∀ i : SlotId, ((w (i / 8)).extractLsb' (28 - 4 * (i % 8)) 4).toNat =
          (([SlotCause.fault, .removed, .mispick, .held, .verdict, .notify, .present, .unloadOverdue].findIdx? fun c =>
            decide (c ∈ (s.att p).slotSets[i])).map fun k => k + 1).getD 0) ∧
        rackBits (w 3) ∧ (w 4).extractLsb 31 17 = 0 ∧ (w 4).getLsbD 16 = decide ((s.att p).notice = .sent) ∧
        (w 4).extractLsb 15 13 = 0 ∧ (w 4).extractLsb 12 0 = (s.att p).mask
      | _ => False) ∧
    match s.records p 0 .rackStatus with
      | [ws] =>
        let w := fun k : Nat => ws.getD k 0
        ws.length = 6 ∧ w 0 = s.now ∧ ((w 1).extractLsb 31 16).toNat = s.line.budget % 65536 ∧
        ((w 1).extractLsb 15 0).toNat = s.load % 65536 ∧ ((w 2).extractLsb 31 24).toNat = s.line.window % 256 ∧
        ((w 2).extractLsb 23 20).toNat = s.line.windowCount % 16 ∧ ((w 2).extractLsb 19 10).toNat = s.line.declareTime % 1024 ∧
        ((w 2).extractLsb 9 0).toNat = s.line.unloadTime % 1024 ∧ ((w 3).extractLsb 31 22).toNat = s.timing.period % 1024 ∧
        (w 3).extractLsb 21 14 = BitVec.ofInt 8 s.timing.hot ∧ ((w 3).extractLsb 13 8).toNat = s.timing.poll % 64 ∧
        (w 3).getLsbD 7 = decide (s.linkA.link = .up) ∧ (w 3).getLsbD 6 = decide (s.linkB.link = .up) ∧
        [Origin.portA, .portB, .resetInput, .powerOn][((w 3).extractLsb 5 4).toNat]? = some s.origin ∧
        (w 3).extractLsb 3 0 = 0 ∧ rackBits (w 4) ∧ w 5 = 2
      | _ => False

/-! ## The Link Interface (chapter 10) -/

/-- R177, R178, R180, R181, R190, R192: a packet on a DOWN port is ignored; on an UP port one with a framing or check error, or against the
stop of a full FIFO, is discarded, and LINK_ERROR is raised toward the master of that port alone. A request of a kind that
its port does not accept is refused NOT_THIS_PORT; a good packet whose packet type is not 1, whose kind is not one of the
24, whose length field disagrees with its body, whose body is above 256 words, or, on a port that accepts its kind, is of
another length than R192 gives the request, is answered MALFORMED, with its own tag and kind. That a packet too short for
header and check word is a framing error, and what a MALFORMED reply echoes, are the model's choices (log entries 6, 26). -/
def Obligations.PacketsAreJudged : Prop :=
  (∀ (s : State) (p : Port) (framed : Bool) (words : List Word),
     ((s.link p).link = .down → exec (.packetReceive p framed words) s = .next s) ∧
     ((s.link p).link = .up → (framed = false ∨ readPacket words = none ∨ (s.link p).fifo.length ≥ 8) →
       exec (.packetReceive p framed words) s = .next (s.raiseTo p (.rack .linkError)).endEvent)) ∧
  (∀ (s : State) (p : Port), s.Clear p →
     (∀ (c : Instr) (k : ReqKind) (tag : Word) (body : List Word), c.wf = true → requestOf c = some (p, k, tag, body) →
       k.acceptedOn p = false → exec c s = .next (s.replies p k tag .notThisPort)) ∧
     ∀ (words : List Word) (x : Packet), readPacket words = some x →
       (x.ptype ≠ 1 ∨ ReqKind.ofCode x.kind.toNat = none ∨ x.len.toNat ≠ x.body.length ∨ 256 < x.body.length ∨
         ∃ k ∈ ReqKind.ofCode x.kind.toNat, k.acceptedOn p = true ∧ k.fits x.body.length = false) →
       exec (.packetReceive p true words) s = .next (s.pushOut p (.reply
         { tag := x.tag, kind := x.kind, status := .malformed, done := false, addressValid := false, body := [] })).endEvent)

/-- R177, R179, R182, R187: a request on a DOWN port is ignored; while dispatch is paused by 8 unsent replies or by the reset
input, a good request packet joins the tail of the FIFO; against the stop of a full FIFO it is discarded. The packet sent
leaves the head of the outgoing path, and the LI dispatches: while fewer than 8 replies are unsent and the reset input is
high it takes the oldest packet of the FIFO, one after the other; a request so taken is the request of its row. That a
request row is the arrival of its packet, and that a packet joins the FIFO while the reset input is low, are the model's
choices (log entries 7, 19). That PACKET_SENT of an empty outgoing path changes nothing is the model's choice (log entry 11). -/
def Obligations.RequestsWaitAndGo : Prop :=
  (∀ (s : State) (c : Instr) (p : Port) (k : ReqKind) (tag : Word) (body : List Word), c.wf = true →
     requestOf c = some (p, k, tag, body) →
     ((s.link p).link = .down → exec c s = .next s) ∧
     ((s.link p).link = .up → (s.link p).fifo.length ≥ 8 → exec c s = .next (s.raiseTo p (.rack .linkError)).endEvent) ∧
     ((s.link p).link = .up → (s.link p).fifo.length < 8 → (s.resetLow = true ∨ 8 ≤ (s.link p).unsent) →
       exec c s = .next (s.modLink p fun l => { l with fifo := l.fifo ++ [requestPacket k tag body] }))) ∧
  (∀ (s : State) (p : Port),
     ((s.link p).fifo = [] → exec (.packetSent p) s = .next (s.modLink p fun l => { l with out := l.out.drop 1 })) ∧
     ∀ (c : Instr) (k : ReqKind) (tag : Word) (body : List Word), c.wf = true → requestOf c = some (p, k, tag, body) →
       (s.link p).fifo = [requestPacket k tag body] →
       let u := s.modLink p fun l => { l with fifo := [], out := l.out.drop 1 }
       u.Clear p → exec (.packetSent p) s = exec c u) ∧
  ∀ (s : State) (p : Port),
    let u := s.modLink p fun l => { l with out := l.out.drop 1 }
    exec (.packetSent p) s = .next (u.dispatch p) ∧
    ((s.link p).fifo = [] ∨ s.resetLow = true ∨ 8 ≤ (s.link p).unsent → s.dispatch p = s) ∧
    (∀ x rest, (s.link p).fifo = x :: rest → s.resetLow = false → (s.link p).unsent < 8 →
      s.dispatch p = ((s.modLink p fun l => { l with fifo := rest }).takePacket p x).dispatch p) ∧
    ∀ (c : Instr) (k : ReqKind) (tag : Word) (body : List Word), c.wf = true → requestOf c = some (p, k, tag, body) →
      s.Clear p → exec c s = .next (s.takePacket p (requestPacket k tag body))

/-- R175, R176, R189: a DOWN port goes UP, and the POWER_ON notice held for it is placed at its first UP. An UP port that goes
DOWN loses its FIFO, its outgoing path and the notices held for it, and, for port A, every direct-operation reply
outstanding takes the drop mark. That the POWER_ON notice is placed while the reset input is low too is read from R189 by
inference (log entry 25); that LINK_UP of an UP port and LINK_DOWN of a DOWN one change nothing is the model's choice (log
entry 11). -/
def Obligations.LinkGoesUpAndDown : Prop :=
  ∀ (s : State) (p : Port), s.AttentionSafe →
    ((s.link p).link = .up → exec (.linkUp p) s = .next s) ∧
    ((s.link p).link = .down → exec (.linkDown p) s = .next s) ∧
    ((s.link p).link = .down → exec (.linkUp p) s = .next (s.modLink p fun l =>
      { l with link := .up, powerOnHeld := false
               out := l.out ++ if l.powerOnHeld then [.notice (.resetDone s.now .powerOn)] else [] })) ∧
    ((s.link p).link = .up → exec (.linkDown p) s =
      .next (({ s with outstanding := if p = .a then s.outstanding.map (fun o => { o with mark := true }) else s.outstanding } :
        State).modLink p fun l => { l with link := .down, fifo := [], out := [], held := [] }))

/-! ## Rack reset (section 10.5) -/

/-- R26, R46, R47, R69, R95, R106, R130, R143, R173, R187, R188: a RACK_RESET that its port takes, on all blocks at once; the
admission queue is that of R47 once its head has been tested, less the slots admitted in turn, each under R35; the resume
points of R93 are recorded, the port reset and patrol timers start, and R46's timers stop or run on; it is answered by
RESET_DONE on each UP port, before the test station's ATTENTION, and by no reply. The model's choices: that the entries of
all slots that go to HELD are withdrawn before the first of them releases its seek load (log entry 36), and that a slot in
GRADING without a plan, which no run reaches, is filed with plan 0 (log entry 35), and that a SWEEP without quiet flag is held
in phase ISSUE (log entry 37). -/
def Obligations.RackResetRequest : Prop :=
  ∀ (s : State) (p : Port) (tag : Word), s.Clear p → Completes (.rackReset p tag) s fun t =>
    (∀ i, SlotAfterReset s t i) ∧ StoresAfterReset s t (if p = .a then .portA else .portB) ∧ t.resetLow = false ∧
    (t.linkB.out = if s.linkB.link = .up then [.notice (.resetDone s.now t.origin)] else []) ∧
    (s.linkA.link = .down → t.linkA.out = []) ∧
    (s.linkA.link = .up → t.linkA.out =
      .notice (.resetDone s.now t.origin) :: (s.resetCause.map fun c => .notice (.attention s.now c)).toList)

/-- R187, R188: the assertion of the reset input is a rack reset; both FIFOs stay stopped and the notices formed, the reset's own
ATTENTION first, are held. At the release each UP port gets RESET_DONE and, behind it, the notices held for it, in order;
those of a DOWN port are dropped; and dispatch resumes. That an input that was low or high already stays as it is, and that
notices are held for a DOWN port too until then, are the model's choices (log entries 18, 24); so are, at the reset itself,
the order in which entries are withdrawn and seek loads released, plan 0 for a slot in GRADING without a plan, and the phase
ISSUE of a held SWEEP without quiet flag (log entries 36, 35, 37). -/
def Obligations.ResetInputHoldsAndReleases : Prop :=
  (∀ s : State, s.AttentionSafe →
     (s.resetLow = true → exec .resetInputAssert s = .next s) ∧
     (s.resetLow = false → Completes .resetInputAssert s fun t =>
       (∀ i, SlotAfterReset s t i) ∧ StoresAfterReset s t .resetInput ∧ t.resetLow = true ∧
       t.linkA.out = [] ∧ t.linkB.out = [] ∧ t.linkB.held = [] ∧
       t.linkA.held = (s.resetCause.map (Notice.attention s.now)).toList)) ∧
  (∀ s : State, s.AttentionSafe →
     let notices := fun l : LinkPort => (Notice.resetDone s.now .resetInput :: l.held).map OutPacket.notice
     let released := fun l : LinkPort => { l with held := [], out := if l.link = .up then l.out ++ notices l else l.out }
     (s.resetLow = false → exec .resetInputRelease s = .next s) ∧
     (s.resetLow = true → s.linkA.fifo = [] → s.linkB.fifo = [] → exec .resetInputRelease s =
       .next { s with resetLow := false, linkA := released s.linkA, linkB := released s.linkB }) ∧
     ∀ (c : Instr) (p : Port) (k : ReqKind) (tag : Word) (body : List Word), c.wf = true →
       requestOf c = some (p, k, tag, body) → s.resetLow = true → (s.link p).fifo = [requestPacket k tag body] →
       (∀ q, q ≠ p → (s.link q).fifo = []) →
       let u := ({ s with resetLow := false, linkA := released s.linkA, linkB := released s.linkB } : State).modLink p
         fun l => { l with fifo := [] }
       u.Clear p → exec .resetInputRelease s = exec c u)

/-! ## Slots, presence and custody (chapter 1) -/

/-- R7, R22, R91, R93, R94, R154, R156, R159, R161: a request on one slot is refused NO_SUCH for a slot number above 23, with the
address-valid indication clear, and for a DISABLED slot, with the indication set, whatever else it asks; and each that a
slot's state forbids is refused WRONG_STATE. The part is unchanged. That UNLOAD's force word is read in bit 0 alone is read by
inference (log entry 22). -/
def Obligations.SlotRequestsAreChecked : Prop :=
  (∀ (s : State) (c : Instr) (p : Port) (k : ReqKind) (tag w : Word) (rest : List Word),
     requestOf c = some (p, k, tag, w :: rest) →
     k ∈ [ReqKind.hold, .resume, .abort, .retest, .slotReset, .directOp, .declare, .cancelPick, .unload, .withdraw, .requeue] →
     s.Clear p → k.acceptedOn p = true →
     (24 ≤ small w → exec c s = .next (s.replies p k tag .noSuch false)) ∧
     ∀ i : SlotId, small w = i.val → (s.record i).state = .disabled → exec c s = .next (s.replies p k tag .noSuch true)) ∧
  (∀ (s : State) (c : Instr) (p : Port) (k : ReqKind) (tag w : Word) (rest : List Word) (i : SlotId),
     requestOf c = some (p, k, tag, w :: rest) → s.Clear p → k.acceptedOn p = true → small w = i.val →
     (s.record i).state ≠ .disabled →
     (match k with
       | .slotReset => (s.record i).state = .empty ∨ (s.record i).state = .unloading
       | .hold => (s.record i).state ≠ .running ∧ (s.record i).state ≠ .held
       | .resume => (s.record i).state ≠ .held ∧
           ((s.record i).state = .running → ∀ r, (s.record i).run = some r → r.holdPending = none)
       | .abort => (s.record i).state ≠ .running ∧ (s.record i).state ≠ .held ∧ (s.record i).state ≠ .grading
       | .cancelPick => (s.record i).state ≠ .unloading
       | .unload => (s.record i).state = .unloading ∨ (s.record i).state = .empty ∨
           ((s.record i).custody = .test ∧ ∃ f ∈ rest, f.getLsbD 0 = false) ∨
           ((s.record i).state = .poweringDown ∧ (s.record i).purpose = some .unload)
       | .withdraw => (s.record i).state ≠ .done ∨ (s.record i).placement = .none
       | .requeue => (s.record i).state ≠ .done ∨ (s.record i).placement ≠ .none
       | _ => False) →
     exec c s = .next (s.replies p k tag .wrongState))

/-- R8, R9, R12: a change of a fitted slot's raw presence input starts its debounce anew; no change, or a DISABLED slot, does
nothing. After 500 ms of steady PRESENT an EMPTY slot is LOADED, its declare timer starts and PRESENT is raised toward the
line controller; in another state the presence field alone changes. That an event which comes before that, and a change to the level
that the input has, do nothing are the model's choices (log entries 5, 11). -/
def Obligations.PresenceIsDebounced : Prop :=
  (∀ (s : State) (i : SlotId) (level : Presence), s.AttentionSafe →
     exec (.presenceInputChange i level) s = .next (
       if (s.record i).state = .disabled ∨ (s.slot i).sm.raw = level then s
       else s.setSlot i { s.slot i with sm := { (s.slot i).sm with raw := level, rawSince := s.now } })) ∧
  (∀ (s : State) (i : SlotId), s.AttentionSafe →
     let steady := (s.record i).state ≠ .disabled ∧ (s.record i).presence = .absent ∧ (s.slot i).sm.raw = .present ∧
       500 ≤ age s.now (s.slot i).sm.rawSince
     (¬ steady → exec (.insertionRecognised i) s = .next s) ∧
     (steady → (s.record i).state ≠ .empty → exec (.insertionRecognised i) s =
       .next (s.setSlot i { s.slot i with record := { s.record i with presence := .present } })) ∧
     (steady → (s.record i).state = .empty → exec (.insertionRecognised i) s =
       .next ((s.setSlot i { s.slot i with
         record := { s.record i with presence := .present, state := .loaded, purpose := none, holdCause := none }
         sm := { (s.slot i).sm with declareTimer := some (afterSec s.now s.line.declareTime), unloadTimer := none } }).raiseTo
           .b (.slot .present i)).endEvent))

/-- R8, R10, R17, R18: a removal not steady for 100 ms does nothing, the model's choice for an event that comes too early (log
entry 5). A recognised one leaves the slot EMPTY with its record
and test record cleared and its timers stopped. A drive under test, or on its way to it, gives back all that the slot
held and loses its power first, and REMOVED is then the slot's only cause toward both masters. -/
def Obligations.RemovalEmptiesSlot : Prop :=
  ∀ (s : State) (i : SlotId), s.Invariant →
    let steady := (s.record i).state ≠ .disabled ∧ (s.record i).presence = .present ∧ (s.slot i).sm.raw = .absent ∧
      100 ≤ age s.now (s.slot i).sm.rawSince
    (¬ steady → exec (.removalRecognised i) s = .next s) ∧
    (steady → Completes (.removalRecognised i) s fun t => (t.record i) = {} ∧ (t.slot i).test = {} ∧
      (t.slot i).sm = { raw := .absent, rawSince := (s.slot i).sm.rawSince } ∧ OthersMayStart s t i ∧ SetupStays s t ∧
      ((s.record i).state ∈ [SlotState.loaded, .spinWait, .spinning, .identifying, .ready, .running, .held, .poweringDown, .grading] →
        TornDown s t i ∧
        ((s.record i).powered = true → (t.dpe i).port = .off ∧ (t.dpe i).ready = false ∧ (t.dpe i).inFlight = none) ∧
        ∀ p : Port, (t.att p).slotSets[i] = if (s.att p).mask.getLsbD 1 then [.removed] else []))

/-- R10, R150, R153, R155: a removal in UNLOADING marks the PICKING entry PICKED, or changes nothing in lots and queues if there
is none, and raises nothing for the slot; one in DONE is a mispick: an UNPICKED entry becomes LOST, a slot that waits
leaves its bin's queue, one with placement NONE changes neither, and MISPICK is raised toward both. A FULL or CLOSED lot
whose entries are then all PICKED or LOST is COMPLETE, with LOT_COMPLETE toward the line controller; an OPEN one stays
OPEN. -/
def Obligations.RemovalFromLot : Prop :=
  ∀ (s : State) (i : SlotId), s.AttentionSafe → (s.record i).presence = .present → (s.slot i).sm.raw = .absent →
    100 ≤ age s.now (s.slot i).sm.rawSince →
    let changed := fun (n : LotId) (old new : EntryState) => (s.lots[n].entries).map fun e =>
      if e.slot = i ∧ e.state = old then { e with state := new } else e
    let completes := fun (n : LotId) (es : List LotEntry) =>
      (s.lots[n].state = .full ∨ s.lots[n].state = .closed) ∧ ∀ e ∈ es, e.state = .picked ∨ e.state = .lost
    let after := fun (n : LotId) (es : List LotEntry) => s.lots.set n
      { s.lots[n] with entries := es, state := if completes n es then .complete else s.lots[n].state }
    let told := fun (n : LotId) (es : List LotEntry) => if completes n es then [Cause.rack (.lotComplete n)] else []
    let removed := fun (lots : Vector Lot 8) (queues : Vector (List SlotId) 7) (toA toB : List Cause) =>
      Completes (.removalRecognised i) s fun t => t.lots = lots ∧ t.binQueues = queues ∧ t.opening = s.opening ∧
        SameOthers s t i ∧ Raised s t .a toA ∧ Raised s t .b toB
    ((s.record i).state = .unloading →
      (∀ n, (s.record i).placement = .lot n →
        let es := changed n .picking .picked
        removed (after n es) s.binQueues [] (told n es)) ∧
      ((s.record i).placement = .none → removed s.lots s.binQueues [] [])) ∧
    ((s.record i).state = .done →
      (∀ n, (s.record i).placement = .lot n →
        let es := changed n .unpicked .lost
        removed (after n es) s.binQueues [.slot .mispick i] (.slot .mispick i :: told n es)) ∧
      (∀ b : Bin, (s.record i).placement = .pending → (s.record i).verdict.map Verdict.bin = some b →
        removed s.lots (s.binQueues.set b.index (s.binQueues[b.index].filter fun j => j != i))
          [.slot .mispick i] [.slot .mispick i]) ∧
      ((s.record i).placement = .none → removed s.lots s.binQueues [.slot .mispick i] [.slot .mispick i]))

/-- R11, R32, R34 to R36, R38, R49: how DECLARE is judged; a LOADED slot joins the tail of the admission queue in SPIN_WAIT.
In an empty queue it is tested at once. Where the surge fits the budget and the window has room the slot is SPINNING: power
on, L higher by the surge load, surge and ready timers running, the start in the window history, the port STARTING. Else its
entry is the head and the head-wait timer starts. That the window counts the starts not yet removed is read by inference (log
entry 32). -/
def Obligations.DeclareFilesSpinUp : Prop :=
  (∀ (s : State) (tag w cls : Word) (i : SlotId), s.Clear .b → small w = i.val → (s.record i).state ≠ .disabled →
     (8 ≤ small cls → exec (.declare .b tag w cls) s = .next (s.replies .b .declare tag .noSuch false)) ∧
     ∀ c : ClassId, small cls = c.val →
     ((s.record i).state ≠ .loaded → exec (.declare .b tag w cls) s = .next (s.replies .b .declare tag .wrongState)) ∧
     ((s.record i).state = .loaded → s.admission ≠ [] → exec (.declare .b tag w cls) s =
       .next (State.replies { s.setSlot i { s.slot i with
           record := { s.record i with state := .spinWait, cls := some c, purpose := none, holdCause := none }
           sm := { (s.slot i).sm with declareTimer := none, unloadTimer := none } } with
         admission := if ∃ e ∈ s.admission, e.slot = i then s.admission
           else s.admission ++ [{ slot := i, kind := .spinup, arrival := s.now }] } .b .declare tag .ok))) ∧
  (∀ (s : State) (tag w cls : Word) (i : SlotId) (c : ClassId), s.Clear .b → small w = i.val → small cls = c.val →
     (s.record i).state = .loaded → (s.record i).phase = .off → s.admission = [] →
     let k := s.classTable[c]
     let fits := s.load + k.isurge ≤ s.line.budget ∧ s.window.length < s.line.windowCount
     let sm := { (s.slot i).sm with declareTimer := none, unloadTimer := none }
     (¬ fits → exec (.declare .b tag w cls) s = .next (State.replies { s.setSlot i { s.slot i with
           sm := sm
           record := { s.record i with state := .spinWait, cls := some c, purpose := none, holdCause := none } } with
         admission := [{ slot := i, kind := .spinup, arrival := s.now }],
         headSince := s.now, headWait := some (afterSec s.now 60) } .b .declare tag .ok)) ∧
     (fits → exec (.declare .b tag w cls) s = .next (State.replies { s.setSlot i { s.slot i with
           sm := sm
           record := { s.record i with state := .spinning, cls := some c, purpose := none, holdCause := none, phase := .surge },
           pau := { surgeTimer := some (afterSec s.now k.ts), readyTimer := some (afterSec s.now k.tr) },
           dpe := { s.dpe i with port := .starting, ready := false } } with
         load := s.load + k.isurge, admission := [], headSince := 0, headWait := none,
         window := (s.window.filter fun x => decide (age s.now x < s.line.window * 1000)) ++ [s.now] } .b .declare tag .ok)))

/-- R22, R17, R42: SLOT_RESET is refused IN_LOT for a slot in a lot; else it gives back all that the slot held, cuts its power,
clears the test record and what the record says of the drive but its class, and the slot is LOADED with its declare timer
running and no cause pending. That the SM carries plan and verdict of a power-down beside the record is read by inference
(log entry 12); a slot that waits without a verdict, which no run reaches, stays in its queue, the model's choice (log entry
35). -/
def Obligations.SlotResetReturnsToLoaded : Prop :=
  ∀ (s : State) (tag w : Word) (i : SlotId) (n : LotId), s.Clear .a → s.Invariant → small w = i.val →
    (s.record i).state ≠ .disabled → (s.record i).state ≠ .empty → (s.record i).state ≠ .unloading →
    ((s.record i).placement = .lot n → exec (.slotReset .a tag w) s = .next (s.replies .a .slotReset tag .inLot)) ∧
    ((s.record i).inLot = false → Completes (.slotReset .a tag w) s fun t => TornDown s t i ∧
      t.record i = { s.record i with
        state := .loaded, purpose := none, identity := none, phase := .off, temperature := none, run := none
        startPlan := none, notifyCode := none, holdCause := none, verdict := none
        placement := if (s.record i).verdict.isSome then .none else (s.record i).placement } ∧
      ((s.record i).powered = true → (t.dpe i).port = .off ∧ (t.dpe i).ready = false ∧ (t.dpe i).inFlight = none ∧
        (t.dpe i).patrolTimer = none ∧ (t.slot i).pau = { surgeTimer := none, readyTimer := none }) ∧
      (t.slot i).test = {} ∧
      (t.slot i).sm = { (s.slot i).sm with declareTimer := some (afterSec s.now s.line.declareTime), unloadTimer := none
                                           carriedPlan := none, carriedVerdict := none } ∧
      (∀ v, (s.record i).verdict = some v → (s.record i).placement = .pending →
        t.binQueues[v.bin.index] = s.binQueues[v.bin.index].filter fun j => j != i) ∧
      (∀ p : Port, (t.att p).slotSets[i] = []) ∧
      Answered s t .a (replyTo .slotReset tag .ok true []))

/-- R24: what a slot's indicator lights, by the slot's state and verdict: nothing, green flashing or steady, blue flashing, amber
for DONE with a FAULT verdict or bin REJECT, white for DONE otherwise. A flashing one is lit in the first half of each
second of rack time; amber is red and green together, white all three. -/
def Obligations.IndicatorShowsState : Prop :=
  ∀ (s : State) (i : SlotId),
    let st := (s.record i).state
    let shown := (s.record i).indicator.lamp s.now
    let lit := decide (s.now.toNat % 1000 < 500)
    let bad := ∃ v ∈ (s.record i).verdict, v.kind = .fault ∨ v.bin = .reject
    (st ∈ [SlotState.disabled, .empty] → shown = { red := false, green := false, blue := false }) ∧
    (st ∈ [SlotState.loaded, .spinWait] → shown = { red := false, green := lit, blue := false }) ∧
    (st ∈ [SlotState.spinning, .identifying, .ready, .running, .held, .poweringDown, .grading] →
      shown = { red := false, green := true, blue := false }) ∧
    (st = .unloading → shown = { red := false, green := false, blue := lit }) ∧
    (st = .done → bad → shown = { red := true, green := true, blue := false }) ∧
    (st = .done → ¬ bad → shown = { red := true, green := true, blue := true })


/-! ## Rack power and spin-up admission (chapter 2) -/

/-- R35 to R37, R31, R34, R13, R49: the test of the queue's head. A head whose condition fails stays, and nothing changes;
one whose condition holds is admitted, and the next entry becomes the head and is tested at once; at the end the queue is
empty or its head's condition fails. What the admission of a SPINUP entry, whenever it arrived, does to its slot, in SPIN_WAIT or at a POWER_CYCLE
step, and to L and the window; and what that of a SEEK entry does, the storm being made ready or, out of the band, waiting.
That the window counts the starts not yet removed is read by inference (log entry 32). -/
def Obligations.HeadsAreTestedAndAdmitted : Prop :=
  (∀ s : State,
     (s.admission = [] → s.testHead = s) ∧
     (∀ e rest, s.admission = e :: rest →
       (s.line.budget < s.load + s.increment e ∨ e.kind = .spinup ∧ s.line.windowCount ≤ s.window.length) → s.testHead = s) ∧
     (∀ e rest, s.admission = e :: rest → s.load + s.increment e ≤ s.line.budget →
       (e.kind = .spinup → s.window.length < s.line.windowCount) →
       s.testHead = ((State.admitEntry { s with admission := rest } e).newHead).testHead) ∧
     (∀ e rest, s.testHead.admission = e :: rest → s.testHead.admissible e = false) ∧
     s.testHead.admission <:+ s.admission) ∧
  (∀ (s : State) (i : SlotId) (arrival : RackTime),
     let k := s.classEntry i
     let since := (s.window.filter fun x => decide (age s.now x < s.line.window * 1000)) ++ [s.now]
     let pau := { surgeTimer := some (afterSec s.now k.ts), readyTimer := some (afterSec s.now k.tr) : PowerTimers }
     let dpe := { s.dpe i with port := .starting, ready := false }
     ((s.record i).state = .spinWait → (s.record i).phase = .off → s.admitEntry ⟨i, .spinup, arrival⟩ =
       { s.setSlot i { s.slot i with
           record := { s.record i with state := .spinning, phase := .surge, purpose := none, holdCause := none }
           sm := { (s.slot i).sm with declareTimer := none, unloadTimer := none }
           pau := pau
           dpe := dpe } with
         load := s.load + k.isurge, window := since }) ∧
     ((s.record i).state = .running → (s.record i).phase = .off → s.admitEntry ⟨i, .spinup, arrival⟩ =
       { s.setSlot i { s.slot i with
           record := { s.record i with phase := .surge, run := (s.record i).run.map fun c => { c with phase := .surge } }
           pau := pau
           dpe := dpe } with
         load := s.load + k.isurge, window := since }) ∧
     ∀ (c : RunContext) (d l : Nat) (pat : StormPattern) (b : Option Band), (s.record i).state = .running →
       (s.record i).phase = .run → (s.record i).run = some c → s.stepEntry i = some (.seekstorm d pat b l) →
       let storm := min 60 ((d * 1000 - c.credit + 999) / 1000)
       let u := { s with load := s.load + k.iseek - k.irun }
       s.admitEntry ⟨i, .seek, arrival⟩ =
         if c.band = .out then u.setSlot i { s.slot i with
           record := { s.record i with phase := .seek, run := some { c with phase := .waitBand } } }
         else (u.setSlot i { s.slot i with
           record := { s.record i with phase := .seek, run := some { c with phase := .issue } }
           dpe := { s.dpe i with ownerOp := some { owner := .sq, op := .seekStorm storm pat, timeout := storm + 30 } } }).openPort i)

/-- R29, R30, R67: SET_LINE clamps and takes the settings it carries, drops the window entries that a new tW leaves too old,
raises OVER_BUDGET when a budget is below L, tests the head when it carries B, tW or Nwin, and returns all five settings.
SET_TIMING clamps and takes the settings it carries, and returns all three. That bits of a presence word which R192 does not
name are ignored is read by inference (log entry 22). -/
def Obligations.SettingsAreTaken : Prop :=
  (∀ (s : State) (tag present b tW nWin declare unload : Word), s.Clear .b →
     let set := fun (k lo hi old : Nat) (w : Word) => if present.getLsbD k then max lo (min hi w.toNat) else old
     let line : LineSettings :=
       { budget := set 0 0 65535 s.line.budget b, window := set 1 1 60 s.line.window tW
         windowCount := set 2 1 8 s.line.windowCount nWin, declareTime := set 3 5 300 s.line.declareTime declare
         unloadTime := set 4 10 600 s.line.unloadTime unload }
     let cut := fun (k taken : Nat) (w : Word) => present.getLsbD k = true ∧ taken ≠ w.toNat
     let clamped := cut 0 line.budget b ∨ cut 1 line.window tW ∨ cut 2 line.windowCount nWin ∨
       cut 3 line.declareTime declare ∨ cut 4 line.unloadTime unload
     let young := s.window.filter fun x => decide (age s.now x < line.window * 1000)
     let u := { s with line := line, window := if present.getLsbD 1 then young else s.window }
     let v := if present.getLsbD 0 = true ∧ line.budget < s.load then u.raiseTo .b (.rack .overBudget) else u
     let tested := present.getLsbD 0 || present.getLsbD 1 || present.getLsbD 2
     exec (.setLine .b tag present b tW nWin declare unload) s =
       .next ((if tested then v.testHead else v).replies .b .setLine tag (if clamped then .clamped else .ok) true
         [BitVec.ofNat 32 line.budget, BitVec.ofNat 32 line.window, BitVec.ofNat 32 line.windowCount,
           BitVec.ofNat 32 line.declareTime, BitVec.ofNat 32 line.unloadTime])) ∧
  (∀ (s : State) (tag present period hot poll : Word), s.Clear .a →
     let timing : TimingSettings :=
       { period := if present.getLsbD 0 then max 1 (min 600 period.toNat) else s.timing.period
         hot := if present.getLsbD 1 then max 30 (min 85 hot.toInt) else s.timing.hot
         poll := if present.getLsbD 2 then max 1 (min 30 poll.toNat) else s.timing.poll }
     let clamped := present.getLsbD 0 = true ∧ timing.period ≠ period.toNat ∨
       present.getLsbD 1 = true ∧ timing.hot ≠ hot.toInt ∨ present.getLsbD 2 = true ∧ timing.poll ≠ poll.toNat
     exec (.setTiming .a tag present period hot poll) s =
       .next (State.replies { s with timing := timing } .a .setTiming tag (if clamped then .clamped else .ok) true
         [BitVec.ofNat 32 timing.period, BitVec.ofInt 32 timing.hot, BitVec.ofNat 32 timing.poll]))

/-- R28: SET_CLASS is refused NO_SUCH for a class above 7 and BUSY while a slot of the class has its power on; else it
replaces the entry whole, Irun clamped first and Isurge and Iseek from it, and tests a head of the class again. -/
def Obligations.SetClassReplacesEntry : Prop :=
  ∀ (s : State) (tag cls w0 w1 w2 w3 w4 w5 : Word), s.Clear .a →
    (8 ≤ small cls → exec (.setClass .a tag cls w0 w1 w2 w3 w4 w5) s = .next (s.replies .a .setClass tag .noSuch false)) ∧
    ∀ c : ClassId, small cls = c.val →
      let powered := ∃ i : SlotId, (s.record i).cls = some c ∧ (s.record i).phase ≠ .off
      let irun := max 1 (min 4000 (bits w0 0 16))
      let e : ClassEntry :=
        { isurge := max irun (min 4000 (bits w0 16 16)), irun := irun, iseek := max irun (min 4000 (bits w1 16 16))
          trip := max 1 (min 6000 (bits w1 0 16)), ts := max 1 (min 30 (bits w2 16 16)), tr := max 5 (min 60 (bits w2 0 16))
          capacity := bits w3 0 16 * 2 ^ 32 + w4.toNat, minRate := w5.toNat }
      let written := e.isurge = bits w0 16 16 ∧ e.irun = bits w0 0 16 ∧ e.iseek = bits w1 16 16 ∧ e.trip = bits w1 0 16 ∧
        e.ts = bits w2 16 16 ∧ e.tr = bits w2 0 16
      let u := { s with classTable := s.classTable.set c e }
      let ofHead := ∃ h ∈ s.admission.head?, (s.record h.slot).cls = some c
      (powered → exec (.setClass .a tag cls w0 w1 w2 w3 w4 w5) s = .next (s.replies .a .setClass tag .busy)) ∧
      (¬ powered → exec (.setClass .a tag cls w0 w1 w2 w3 w4 w5) s =
        .next ((if ofHead then u.testHead else u).replies .a .setClass tag (if written then .ok else .clamped) true e.words))

/-- R43, R44, R16: a conversion is clamped and stored for every fitted slot. One above the trip value of a closed switch trips
the slot: its power goes off and fault OVERCURRENT is taken; for a power-down that ends in UNLOADING the slot goes there. That
a HOLD step which holds its slot is logged once more is read by inference (log entry 9). -/
def Obligations.ConversionStoresAndTrips : Prop :=
  ∀ (s : State) (i : SlotId) (reading : Int), s.Invariant →
    let current := (max 0 (min 65535 reading)).toNat
    let trips := (s.record i).phase ≠ .off ∧ (s.classEntry i).trip < current
    ((s.record i).state = .disabled → exec (.currentConversion i reading) s = .next s) ∧
    ((s.record i).state ≠ .disabled → ¬ trips → exec (.currentConversion i reading) s =
      .next (s.setSlot i { s.slot i with record := { s.record i with current := current } })) ∧
    (trips → Completes (.currentConversion i reading) s fun t =>
      FaultEnds s t i .overcurrent ∧ (t.record i).current = current)

/-- R12, R23, R34, R39 to R41, what the timers of slots and power do. At the declare timer's expiry a LOADED slot goes on with the
class it holds, or class 0, as if declared: behind others it waits, in an empty queue it is admitted where the surge fits the
budget and the window has room, else it is the head and waits; at the unload timer's expiry UNLOAD_OVERDUE is raised toward the line controller
and the slot stays UNLOADING. At the surge timer's expiry a slot in SURGE goes to RUN, L falls by Isurge − Irun, and the
head is tested; at the ready timer's expiry fault NO_READY is taken; at the head-wait timer's expiry ADMISSION_STALLED is
raised toward the line controller; when the oldest start of the window history reaches age tW it leaves and the head is
tested. A timer not due, or another state, does nothing: the model's choice (log entry 5). That the window counts the starts not yet
removed, and that a HOLD step which holds its slot is logged once more at a fault, are read by inference (log entries 32, 9). -/
def Obligations.TimersExpire : Prop :=
  (∀ (s : State) (i : SlotId), s.AttentionSafe →
     let due := (s.record i).state = .loaded ∧ ∃ d ∈ (s.slot i).sm.declareTimer, reached s.now d = true
     let k := s.classTable[(s.record i).cls.getD 0]
     let fits := s.load + k.isurge ≤ s.line.budget ∧ s.window.length < s.line.windowCount
     let sm := { (s.slot i).sm with declareTimer := none, unloadTimer := none }
     let waiting := { s.record i with
       state := .spinWait, cls := some ((s.record i).cls.getD 0), purpose := none, holdCause := none }
     let entry : AdmissionEntry := { slot := i, kind := .spinup, arrival := s.now }
     (¬ due → exec (.declareTimeout i) s = .next s) ∧
     (due → s.admission ≠ [] → exec (.declareTimeout i) s =
       .next { s.setSlot i { s.slot i with record := waiting, sm := sm } with
         admission := if ∃ e ∈ s.admission, e.slot = i then s.admission else s.admission ++ [entry] }) ∧
     (due → s.admission = [] → ¬ fits → exec (.declareTimeout i) s =
       .next { s.setSlot i { s.slot i with record := waiting, sm := sm } with
         admission := [entry], headSince := s.now, headWait := some (afterSec s.now 60) }) ∧
     (due → s.admission = [] → fits → (s.record i).phase = .off → exec (.declareTimeout i) s =
       .next { s.setSlot i { s.slot i with
           sm := sm
           record := { waiting with state := .spinning, phase := .surge }
           pau := { surgeTimer := some (afterSec s.now k.ts), readyTimer := some (afterSec s.now k.tr) }
           dpe := { s.dpe i with port := .starting, ready := false } } with
         load := s.load + k.isurge, headSince := 0, headWait := none
         window := (s.window.filter fun x => decide (age s.now x < s.line.window * 1000)) ++ [s.now] })) ∧
  (∀ (s : State) (i : SlotId), s.AttentionSafe →
     let overdue := (s.record i).state = .unloading ∧ ∃ d ∈ (s.slot i).sm.unloadTimer, reached s.now d = true
     (¬ overdue → exec (.unloadOverdue i) s = .next s) ∧
     (overdue → exec (.unloadOverdue i) s = .next ((s.setSlot i { s.slot i with
       sm := { (s.slot i).sm with unloadTimer := none } }).raiseTo .b (.slot .unloadOverdue i)).endEvent)) ∧
  (∀ (s : State) (i : SlotId), s.Invariant →
     let surge := ∃ d ∈ (s.slot i).pau.surgeTimer, reached s.now d = true
     let ready := ∃ d ∈ (s.slot i).pau.readyTimer, reached s.now d = true
     (¬ surge ∨ (s.record i).phase ≠ .surge → exec (.surgeTimerExpiry i) s = .next s) ∧
     (surge → (s.record i).phase = .surge → exec (.surgeTimerExpiry i) s =
       .next (State.testHead { s.setSlot i { s.slot i with
           record := { s.record i with phase := .run }
           pau := { (s.slot i).pau with surgeTimer := none } } with
         load := s.load + (s.classEntry i).irun - (s.classEntry i).isurge }).endEvent) ∧
     (¬ ready → exec (.readyTimeout i) s = .next s) ∧
     (ready → (s.record i).feelsFault = true → Completes (.readyTimeout i) s fun t => FaultEnds s t i .noReady)) ∧
  (∀ s : State, s.AttentionSafe →
     let stalled := ∃ d ∈ s.headWait, reached s.now d = true
     (¬ stalled → exec .headWaitExpiry s = .next s) ∧
     (stalled → exec .headWaitExpiry s = .next (State.raiseTo { s with headWait := none } .b (.rack .admissionStalled)).endEvent)) ∧
  (∀ s : State, s.AttentionSafe →
     (s.window = [] → exec .windowEntryAged s = .next s) ∧
     ∀ start rest, s.window = start :: rest →
       (age s.now start < s.line.window * 1000 → exec .windowEntryAged s = .next s) ∧
       (s.line.window * 1000 ≤ age s.now start →
         exec .windowEntryAged s = .next (State.testHead { s with window := rest }).endEvent))


/-! ## Drive ports, operations and patrol (chapter 3) -/

/-- R57, R50, R51, R80, R82: an opening issues the pending poll, else the waiting direct operation, else the owner's operation,
under the next tag and with its kind's timeout; the SQ's phase ISSUE becomes WAIT_OP. A port that is not IDLE issues nothing.
A step proceeds: with its band OUT it waits in WAIT_BAND; else a SWEEP has its next segment ready, from the cursor to the
segment size or the end of the zone, and a SEEKSTORM its next storm, of the credit that remains, at most 60 s; the port is at
an opening if it is IDLE. -/
def Obligations.OperationsAreOfferedAndIssued : Prop :=
  (∀ (s : State) (i : SlotId),
     let e := s.dpe i
     let issued := fun (op : Operation) (who : Requester) (timeout : Nat) =>
       { e with
         port := .busy, tag := e.tag + 1
         inFlight := some { op := op, tag := e.tag + 1, requester := who, issued := s.now, deadline := afterSec s.now timeout } }
     let put := fun e : Engine => s.setSlot i { s.slot i with dpe := e }
     (e.port ≠ .idle → s.openPort i = s) ∧
     (e.port = .idle → e.pollPending = true →
       s.openPort i = put { issued .healthPoll .patrol s.timing.poll with pollPending := false }) ∧
     (e.port = .idle → e.pollPending = false → ∀ d, e.direct = some d →
       let out := match d.kind with
         | .identify => issued .identify (.direct d) 10
         | .readVerify => issued (.readVerify d.start d.count) (.direct d) 60
         | .healthPoll => issued .healthPoll (.direct d) s.timing.poll
       s.openPort i = put { out with direct := none }) ∧
     (e.port = .idle → e.pollPending = false → e.direct = none → ∀ o, e.ownerOp = some o →
       s.openPort i = match o.owner with
         | .sm => put { issued o.op .sm o.timeout with ownerOp := none }
         | .sq => s.setSlot i { s.slot i with
             record := { s.record i with
               run := (s.record i).run.map fun c => { c with phase := if c.phase = .issue then .waitOp else c.phase } }
             dpe := { issued o.op .sq o.timeout with ownerOp := none } }) ∧
     (e.port = .idle → e.pollPending = false → e.direct = none → e.ownerOp = none → s.openPort i = s)) ∧
  (∀ (s : State) (i : SlotId) (x : RunContext), (s.record i).run = some x →
     let waiting := s.setSlot i { s.slot i with record := { s.record i with run := some { x with phase := .waitBand } } }
     let offered := fun (op : Operation) (timeout : Nat) => (s.setSlot i { s.slot i with
       record := { s.record i with run := some { x with phase := .issue } }
       dpe := { s.dpe i with ownerOp := some { owner := .sq, op := op, timeout := timeout } } }).openPort i
     let capacity := ((s.record i).identity.map fun d => d.capacity.toNat).getD 0
     let size := capacity / 16
     let z := if 15 * size ≤ x.cursor then 15 else x.cursor / size
     let past := if z = 15 then capacity else (z + 1) * size
     (∀ w, s.stepEntry i = some (.sweep w) →
       let count := min (w.segment * 65536) (past - x.cursor)
       s.proceedSweep i = if x.band = .out then waiting else match w.mode with
         | .readVerify => offered (.readVerify x.cursor count) w.timeout
         | .writeVerify => offered (.writeVerify x.cursor count w.pattern) w.timeout) ∧
     (∀ d pat b l, s.stepEntry i = some (.seekstorm d pat b l) →
       let storm := min 60 ((d * 1000 - x.credit + 999) / 1000)
       s.proceedStorm i = if x.band = .out then waiting else offered (.seekStorm storm pat) (storm + 30)))

/-- R64, R182: the order in which DIRECT_OP is judged, and what an accepted one leaves: the direct operation waits at the
port, which is at an opening if it is IDLE, and its reply is outstanding; nothing is answered yet. That an IDENTIFY and a
HEALTH_POLL are taken with start and count 0 is the model's choice (log entry 13). -/
def Obligations.DirectOpIsJudgedInOrder : Prop :=
  ∀ (s : State) (tag w kind startHi startLo countHi countLo : Word) (i : SlotId), s.Clear .a → small w = i.val →
    (s.record i).state ≠ .disabled →
    let direct := exec (.directOp .a tag w kind startHi startLo countHi countLo) s
    let refused := fun st : Status => Host.Outcome.next (s.replies .a .directOp tag st)
    let capacity := ((s.record i).identity.map fun d => d.capacity.toNat).getD 0
    let start := bits startHi 0 16 * 2 ^ 32 + startLo.toNat
    let asked := bits countHi 0 16 * 2 ^ 32 + countLo.toNat
    let allowed := (s.record i).state = .ready ∨ (s.record i).state = .held ∧ (s.dpe i).ready = true
    let free := (s.dpe i).directOp = none
    let taken := fun d : DirectOp =>
      Host.Outcome.next ((State.openPort { s.setSlot i { s.slot i with dpe := { s.dpe i with direct := some d } } with
        outstanding := s.outstanding ++ [{ tag := tag, slot := i, mark := false }] } i).endEvent)
    if small kind ≠ 1 ∧ small kind ≠ 2 ∧ small kind ≠ 5 then direct = .next (s.replies .a .directOp tag .malformed false)
    else if ¬ allowed then direct = refused .wrongState
    else if ¬ free then direct = refused .busy
    else if small kind = 1 then direct = taken { kind := .identify, start := 0, count := 0, clamped := false }
    else if small kind = 5 then direct = taken { kind := .healthPoll, start := 0, count := 0, clamped := false }
    else if capacity ≤ start then direct = refused .noSuch
    else
      let n := min (max 1 (min 268435456 asked)) (capacity - start)
      direct = taken { kind := .readVerify, start := start, count := n, clamped := n != asked }

/-- R49, R40, R41, R13, R85, R60: a ready report. None is received in OFF, where the model leaves the state unchanged (log entry
11). It sets the flag in STARTING, which becomes IDLE, and in RESETTING, and patrol starts where the slot is polled; in IDLE
and BUSY it changes nothing at the port. With no ready timer running that is all, but for a surge, which ends: the phase is
RUN, L falls, the surge timer stops and the head is tested. With the ready timer running the surge ends, the timers stop, and
the report goes to the SM in SPINNING and to the SQ at a POWER_CYCLE step in SURGE: its IDENTIFY is issued from STARTING, and
from RESETTING waits for the port. -/
def Obligations.ReadyReportBringsDriveUp : Prop :=
  ∀ (s : State) (i : SlotId), s.Invariant →
    let r := s.record i
    let e := s.dpe i
    let report := exec (.driveReadyReport i) s
    let length := if ∃ t ∈ r.temperature, s.timing.hot ≤ t then max 1 (s.timing.period / 2) else s.timing.period
    let polled := r.state = .ready ∨ r.state = .running ∨ r.state = .held ∨ r.state = .poweringDown
    let timer := if polled then some (afterSec s.now length) else e.patrolTimer
    let waits := (s.slot i).pau.readyTimer.isSome = true
    let quiet := ¬ waits ∧ r.phase ≠ .surge
    (e.port = .off → report = .next s) ∧
    (quiet → (e.port = .idle ∨ e.port = .busy) → report = .next s) ∧
    (quiet → e.port = .resetting → report = .next (s.setSlot i { s.slot i with
      dpe := { e with ready := true, patrolTimer := if e.ready then e.patrolTimer else timer } })) ∧
    (quiet → e.port = .starting → report = .next ((s.setSlot i { s.slot i with
      dpe := { e with ready := true, port := .idle, patrolTimer := timer } }).openPort i).endEvent) ∧
    (¬ waits → r.phase = .surge → e.port ≠ .off →
      let ported := match e.port with
        | .starting => (s.setSlot i { s.slot i with
            dpe := { e with ready := true, port := .idle, patrolTimer := timer } }).openPort i
        | .resetting => s.setSlot i { s.slot i with
            dpe := { e with ready := true, patrolTimer := if e.ready then e.patrolTimer else timer } }
        | _ => s
      report = .next (State.testHead { ported.setSlot i { ported.slot i with
          record := { ported.record i with phase := .run }, pau := { surgeTimer := none, readyTimer := none } } with
        load := s.load + (s.classEntry i).irun - (s.classEntry i).isurge }).endEvent) ∧
    (waits → (∀ x ∈ s.admission, x.slot ≠ i) →
      let u := if r.phase = .surge then State.testHead { s.setSlot i { s.slot i with record := { r with phase := .run } } with
        load := s.load + (s.classEntry i).irun - (s.classEntry i).isurge } else s
      let phase := if r.phase = .surge then .run else r.phase
      let pau := { surgeTimer := if r.phase = .surge then none else (s.slot i).pau.surgeTimer, readyTimer := none : PowerTimers }
      let passed := fun x : Slot => Host.Outcome.next (u.setSlot i { x with
        record := { x.record with phase := phase }, pau := pau }).endEvent
      let identifying := { s.slot i with
        record := { r with state := .identifying, purpose := none, holdCause := none }
        sm := { (s.slot i).sm with declareTimer := none, unloadTimer := none } }
      let reidentifying := fun c : RunContext => { s.slot i with record := { r with run := some { c with phase := .reidentify } } }
      let issued := fun who : Requester =>
        { e with
          port := .busy, ready := true, tag := e.tag + 1
          inFlight := some { op := .identify, tag := e.tag + 1, requester := who, issued := s.now, deadline := afterSec s.now 10 } }
      let offered := fun who : Owner =>
        { e with ready := true, ownerOp := some { owner := who, op := .identify, timeout := 10 } }
      (e.port = .starting → e.pollPending = false → e.direct = none → e.ownerOp = none →
        (r.state = .spinning → report = passed { identifying with dpe := issued .sm }) ∧
        (r.state = .running → ∀ c, r.run = some c → c.phase = .surge →
          report = passed { reidentifying c with dpe := { issued .sq with patrolTimer := timer } })) ∧
      (e.port = .resetting →
        (r.state = .spinning → report = passed { identifying with dpe := offered .sm }) ∧
        (r.state = .running → ∀ c, r.run = some c → c.phase = .surge → report = passed { reidentifying c with
          dpe := { offered .sq with patrolTimer := if e.ready then e.patrolTimer else timer } })))

/-- R56, R60, R61 (log entry 15): link-up ends a port reset, the port going to IDLE with the ready flag set and to STARTING without it; the
reset timer's expiry in a port reset is fault PORT_DEAD; the patrol timer's expiry restarts it and makes the one pending
poll. A timer not due, and link-up outside a port reset, change nothing: the model's choice (log entries 5, 11). That a HOLD
step which holds its slot is logged once more at the fault is read by inference (log entry 9). -/
def Obligations.ResetEndsAndPollsFallDue : Prop :=
  ∀ (s : State) (i : SlotId), s.Invariant →
    let e := s.dpe i
    let length := if ∃ t ∈ (s.record i).temperature, s.timing.hot ≤ t then max 1 (s.timing.period / 2) else s.timing.period
    let dead := e.port = .resetting ∧ ∃ d ∈ e.resetTimer, reached s.now d = true
    let poll := ∃ d ∈ e.patrolTimer, reached s.now d = true
    (e.port ≠ .resetting → exec (.portLinkUp i) s = .next s) ∧
    (e.port = .resetting → exec (.portLinkUp i) s = .next ((s.setSlot i { s.slot i with
      dpe := { e with resetTimer := none, port := if e.ready then .idle else .starting } }).openPort i).endEvent) ∧
    (¬ dead → exec (.portResetTimeout i) s = .next s) ∧
    (dead → (s.record i).feelsFault = true → Completes (.portResetTimeout i) s fun t => FaultEnds s t i .portDead) ∧
    (¬ poll → exec (.patrolTimerExpiry i) s = .next s) ∧
    (poll → exec (.patrolTimerExpiry i) s = .next ((s.setSlot i { s.slot i with
      dpe := { e with patrolTimer := some (afterSec s.now length), pollPending := true } }).openPort i).endEvent)

/-- R52, R62, R63: a completion that finds the register empty or another tag in it is discarded. Of a patrol poll: FAULT or a
fault list is fault DRIVE_FAULT; ABORTED is a miss, the third in a row fault UNRESPONSIVE; else the temperature is stored
clamped, the misses become 0, and for a slot without a run context that is all. The faults are stated where the order of
InvariantAtReset and StepKeepsOrder holds, in which a slot has a run context in RUNNING and HELD alone. That a HOLD step which
holds its slot is logged once more at a fault is read by inference (log entry 9). -/
def Obligations.PatrolPollIsTaken : Prop :=
  ∀ (s : State) (i : SlotId) (c : Completion) (f : InFlight), s.Invariant →
    let e := s.dpe i
    let ended := { e with inFlight := none, port := .idle }
    (e.inFlight = none ∨ e.inFlight = some f ∧ f.tag ≠ c.tag → exec (.driveCompletion i c) s = .next s) ∧
    (e.inFlight = some f → f.tag = c.tag → f.requester = .patrol →
      (c.status = .fault ∨ c.faultCodes ≠ [] → (s.record i).feelsFault = true → s.Orderly →
        Completes (.driveCompletion i c) s fun t => FaultEnds s t i .driveFault) ∧
      (c.status = .aborted → c.faultCodes = [] →
        (e.misses < 2 → exec (.driveCompletion i c) s =
          .next ((s.setSlot i { s.slot i with dpe := { ended with misses := e.misses + 1 } }).openPort i).endEvent) ∧
        (2 ≤ e.misses → (s.record i).feelsFault = true → s.Orderly →
          Completes (.driveCompletion i c) s fun t => FaultEnds s t i .unresponsive)) ∧
      ((c.status = .good ∨ c.status = .media) → c.faultCodes = [] → (s.record i).run = none →
        exec (.driveCompletion i c) s = .next ((s.setSlot i { s.slot i with
          record := { s.record i with temperature := some (max (-40) (min 125 c.temperature)) }
          dpe := { ended with misses := 0 } }).openPort i).endEvent))

/-- R62, R89, R118: a patrol poll of a RUNNING or HELD slot with a run context re-evaluates the band of the step in progress,
and a SWEEP counts a hot reading. In RUNNING a change to OUT stamps the time and starts the stall timer, a band not OUT stops
it; a SWEEP or SEEKSTORM in WAIT_BAND goes on once the band is not OUT, and one in ISSUE takes its operation back when it is.
In HELD the band state alone changes. That a step without a band has band state NONE is read by inference (log entry 14). -/
def Obligations.PatrolPollMovesBand : Prop :=
  ∀ (s : State) (i : SlotId) (c : Completion) (f : InFlight) (x : RunContext) (step : StepEntry), s.Invariant →
    (s.dpe i).inFlight = some f → f.tag = c.tag → f.requester = .patrol → (c.status = .good ∨ c.status = .media) →
    c.faultCodes = [] → ((s.record i).state = .running ∨ (s.record i).state = .held) → (s.record i).run = some x →
    s.stepEntry i = some step →
    let running := (s.record i).state = .running
    let temperature := max (-40) (min 125 c.temperature)
    let hot := step.kind = .sweep ∧ s.timing.hot ≤ temperature
    let y := match step.band with
      | none => { x with band := .none }
      | some b =>
        let found := if b.lo ≤ temperature ∧ temperature ≤ b.hi then BandState.in_ else .out
        if ¬ running then { x with band := found }
        else if found = .in_ then { x with band := .in_, outSince := none, stallTimer := none }
        else if x.band = .out then x
        else { x with
          band := .out, outSince := some s.now
          stallTimer := if step.stall = 0 then none else some (afterSec s.now step.stall) }
    let u := fun y : RunContext => s.setSlot i { s.slot i with
      record := { s.record i with temperature := some temperature, run := some y }
      dpe := { s.dpe i with inFlight := none, port := .idle, misses := 0 }
      test := { (s.slot i).test with thermal := if hot then min 255 ((s.slot i).test.thermal + 1) else (s.slot i).test.thermal } }
    exec (.driveCompletion i c) s = .next
      (if ¬ running then ((u y).openPort i).endEvent
      else if step.kind = .sweep ∧ x.phase = .waitBand ∧ y.band ≠ .out then (((u y).proceedSweep i).openPort i).endEvent
      else if step.kind = .seekstorm ∧ x.phase = .waitBand ∧ y.band ≠ .out then (((u y).proceedStorm i).openPort i).endEvent
      else if (step.kind = .sweep ∨ step.kind = .seekstorm) ∧ x.phase = .issue ∧ y.band = .out then
        (((u { y with phase := .waitBand }).modDpe i fun e => { e with ownerOp := none }).openPort i).endEvent
      else ((u y).openPort i).endEvent)

/-- R65, R182, R192, R54: a direct operation ends by its completion, with OK or CLAMPED and a body of 34 words, given field by
field: operation kind, start and count as taken, and the completion record, in which a field that the kind does not return is
0; or by its timeout, with TIMEOUT, the first five of those words and a port reset. Its outstanding record goes, and the reply is placed unless it has the drop mark or
port A is DOWN. A HEALTH_POLL that completes replaces the last temperature, whatever its status: the model's choice (log
entry 29), as are the start and count 0 of a kind that has no sectors (log entry 13) and that a timeout before its deadline
changes nothing (log entry 5). -/
def Obligations.DirectOperationIsAnswered : Prop :=
  ∀ (s : State) (i : SlotId) (c : Completion) (f : InFlight) (d : DirectOp) (o : Outstanding), s.AttentionSafe →
    (s.dpe i).inFlight = some f → f.requester = .direct d → s.outstanding.find? (fun o => o.slot == i) = some o →
    let sent := fun (st : Status) (body : List Word) => if o.mark = false ∧ (s.link .a).link = .up then
        [OutPacket.reply { replyTo .directOp o.tag st true body with direct := true, done := true }] else []
    let left := fun (x : Slot) (st : Status) (body : List Word) =>
      State.modLink { s.setSlot i x with outstanding := s.outstanding.filter fun o => o.slot != i } .a
        fun l => { l with out := l.out ++ sent st body }
    let body := d.words ++ completionWords d.kind c
    let w := fun k : Nat => body.getD k 0
    let byte := fun k : Nat => (w (k / 4)).extractLsb' (24 - 8 * (k % 4)) 8
    let verify := d.kind = .readVerify
    let poll := d.kind = .healthPoll
    (f.tag = c.tag → exec (.driveCompletion i c) s = .next ((left { s.slot i with
        record := { s.record i with
          temperature := if d.kind = .healthPoll then some (max (-40) (min 125 c.temperature)) else (s.record i).temperature }
        dpe := { s.dpe i with inFlight := none, port := .idle } }
      (if d.clamped then .clamped else .ok) body).openPort i).endEvent) ∧
    (body.length = 34 ∧ d.words = body.take 5 ∧
      (w 0).toNat = (match d.kind with
        | .identify => 1
        | .readVerify => 2
        | .healthPoll => 5) ∧
      (w 1).toNat = d.start / 2 ^ 32 % 65536 ∧ (w 2).toNat = d.start % 2 ^ 32 ∧
      (w 3).toNat = d.count / 2 ^ 32 % 65536 ∧ (w 4).toNat = d.count % 2 ^ 32 ∧
      (w 5).extractLsb 31 24 = c.tag ∧
      [CompletionStatus.good, .media, .fault, .aborted][((w 5).extractLsb 23 22).toNat]? = some c.status ∧
      ((w 5).extractLsb 21 19).toNat = (w 0).toNat ∧ (w 5).extractLsb 18 16 = 0 ∧
      (w 5).extractLsb 15 8 = (if poll then BitVec.ofInt 8 (max (-40) (min 125 c.temperature)) else 0) ∧
      (w 5).extractLsb 7 4 = 0 ∧ ((w 5).extractLsb 3 0).toNat = (if poll then min 8 c.faultCodes.length else 0) ∧
      (w 6).toNat = (if verify then c.sectorsDone.toNat / 2 ^ 32 else 0) ∧
      (w 7).toNat = (if verify then c.sectorsDone.toNat % 2 ^ 32 else 0) ∧
      w 8 = (if verify then c.hardErrors else 0) ∧ w 9 = (if verify then c.softErrors else 0) ∧
      w 10 = 0 ∧ w 11 = 0 ∧ w 12 = c.duration ∧
      (∀ k : Fin 8, byte (52 + k) = if poll then c.faultCodes.getD k 0 else 0) ∧
      if d.kind = .identify then
        (∀ k : Fin 20, byte (60 + k) = c.identity.serial[k]) ∧ (∀ k : Fin 40, byte (80 + k) = c.identity.model[k]) ∧
        (∀ k : Fin 8, byte (120 + k) = c.identity.firmware[k]) ∧
        (w 32).toNat = c.identity.capacity.toNat / 2 ^ 32 ∧ (w 33).toNat = c.identity.capacity.toNat % 2 ^ 32
      else ∀ k : Fin 19, w (15 + k) = 0) ∧
    (reached s.now f.deadline = true → exec (.operationTimeout i) s = .next (left { s.slot i with
      dpe := { s.dpe i with inFlight := none, port := .resetting, resetTimer := some (afterSec s.now 5) } } .timeout d.words)) ∧
    (reached s.now f.deadline = false → exec (.operationTimeout i) s = .next s)

/-- R53, R58, R59, R14, R85: the completion of an IDENTIFY of the SM or the SQ. FAULT and ABORTED are fault DRIVE_FAULT; the
first of the four checks that fails is the fault. An identity that passes is stored: the slot goes to READY and patrol
starts, or it runs its start-on-ready plan, or the POWER_CYCLE step ends. -/
def Obligations.IdentityIsChecked : Prop :=
  ∀ (s : State) (i : SlotId) (c : Completion) (f : InFlight), s.Invariant → (s.dpe i).inFlight = some f → f.tag = c.tag →
    f.op = .identify →
    (f.requester = .sm ∧ (s.record i).state = .identifying ∨ f.requester = .sq ∧ (s.record i).state = .running) →
    let r := s.record i
    let done := exec (.driveCompletion i c) s
    let capacity := c.identity.capacity.toNat
    let expected := (s.classEntry i).capacity
    let bad : Option FaultCause :=
      if c.status = .fault ∨ c.status = .aborted then some .driveFault
      else if capacity < 1048576 then some .badCapacity
      else if expected ≠ 0 ∧ expected ≠ capacity then some .classMismatch
      else if ∃ d ∈ r.identity, d.serial ≠ c.identity.serial then some .swapped
      else if ∃ j : SlotId, j ≠ i ∧ ∃ d ∈ (s.record j).identity, d.serial = c.identity.serial then some .duplicateSerial
      else none
    let ended := { s.dpe i with inFlight := none, port := .idle }
    let length := if ∃ t ∈ r.temperature, s.timing.hot ≤ t then max 1 (s.timing.period / 2) else s.timing.period
    (∀ fault, bad = some fault → Completes (.driveCompletion i c) s fun t => FaultTaken s t i fault) ∧
    (bad = none → f.requester = .sm → r.startPlan = none → done = .next ((s.setSlot i { s.slot i with
      record := { r with state := .ready, identity := some c.identity, purpose := none, holdCause := none }
      sm := { (s.slot i).sm with declareTimer := none, unloadTimer := none }
      dpe := { ended with
        patrolTimer := if ended.ready then some (afterSec s.now length) else ended.patrolTimer } }).openPort i).endEvent) ∧
    (bad = none → f.requester = .sm → ∀ p, r.startPlan = some p → done = .next (((s.setSlot i { s.slot i with
      record := { r with identity := some c.identity, startPlan := none }
      dpe := ended }).startRun i p).openPort i).endEvent) ∧
    (bad = none → f.requester = .sq → done = .next (((s.setSlot i { s.slot i with
      record := { r with identity := some c.identity }
      dpe := ended }).endOfStep i).openPort i).endEvent)

/-- R53, R54, R19, R20, R21, R23, R66, R84, R125: a STANDBY ends by its completion, whatever its status, or by its timeout. The
power is cut, and a direct operation that waits is ended with WRONG_STATE. A slot powering down goes to GRADING, filed with
its plan, and TABLE_UNSET raised toward the test station if the table is UNSET and the unset-notice flag was clear; to DONE
with its ABORTED verdict, and VERDICT raised toward both masters; or to UNLOADING with its timer running. A POWER_CYCLE step
enters OFF, or its slot is HELD there if a hold waits. The model's slot carries the plan and the verdict through the
power-down (log entry 12); without one, which no run reaches, the plan is 0 (log entry 35). -/
def Obligations.StandbyEndsInPowerCut : Prop :=
  ∀ (s : State) (i : SlotId) (c : Completion) (f : InFlight) (cmd : Instr), s.Invariant → (s.dpe i).inFlight = some f →
    f.op = .standby → (s.record i).phase ≠ .off →
    (cmd = .driveCompletion i c ∧ f.tag = c.tag ∨ cmd = .operationTimeout i ∧ reached s.now f.deadline = true) →
    let r := s.record i
    let off := fun t : State => (t.record i).phase = .off ∧ (t.dpe i).port = .off ∧ (t.dpe i).ready = false ∧
      (t.dpe i).inFlight = none ∧ (t.dpe i).patrolTimer = none ∧ (t.slot i).pau = { surgeTimer := none, readyTimer := none } ∧
      OthersMayStart s t i ∧ SetupStays s t ∧ (t.dpe i).direct = none ∧ DirectEnded s t i
    let full := fun b : Bin => match s.openLotOf b with
      | some n => if s.lots[n].entries.length + 1 = s.lots[n].capacity then [Cause.rack (.lotFull n)] else []
      | none => []
    (f.requester = .sm → r.state = .poweringDown →
      (r.purpose = some .grade → Completes cmd s fun t => off t ∧ (t.record i).state = .grading ∧
        (t.slot i).test = (s.slot i).test ∧ t.unsetNotice = (s.unsetNotice || !s.grade.set) ∧
        Raised s t .a (if s.grade.set = false ∧ s.unsetNotice = false then [.rack .tableUnset] else []) ∧ Raised s t .b [] ∧
        (let entry : GradingEntry := { slot := i, plan := ((s.slot i).sm.carriedPlan).getD 0, arrival := s.now }
         if s.engine = none ∧ s.grade.set = true ∧ s.gradingQueue = [] then
           t.gradingQueue = [] ∧ t.engine = some { slot := i, plan := entry.plan, revision := s.grade.revision, taken := s.now
                                                   discard := false, copy := (s.slot i).test }
         else s.engine.isSome = true ∨ s.grade.set = false → t.gradingQueue = s.gradingQueue ++ [entry] ∧ t.engine = s.engine)) ∧
      (r.purpose = some .abort → ∀ v, (s.slot i).sm.carriedVerdict = some v → Completes cmd s fun t => off t ∧
        (t.record i).state = .done ∧ (t.record i).verdict = some v ∧
        (t.record i).placement = ((s.openLotOf v.bin).map Placement.lot).getD .pending ∧
        (v.kind = .aborted → Raised s t .a [.slot .verdict i] ∧ Raised s t .b (.slot .verdict i :: full v.bin))) ∧
      (r.purpose = some .unload → Completes cmd s fun t => off t ∧ (t.record i).state = .unloading ∧
        (t.slot i).sm.unloadTimer = some (afterSec s.now s.line.unloadTime) ∧ (t.record i).verdict = r.verdict ∧
        (t.record i).placement = r.placement ∧ ∀ p, Raised s t p [])) ∧
    (f.requester = .sq → r.state = .running → ((s.stepEntry i).map StepEntry.kind) = some .powerCycle → ∀ x, r.run = some x →
      (∀ a ∈ s.admission, a.slot ≠ i) → i ∉ (s.trays[trayOf i]).slots → r.phase ≠ .seek →
      Completes cmd s fun t => off t ∧ (t.slot i).test = (s.slot i).test ∧
        (t.record i).state = (if x.holdPending = none then .running else .held) ∧
        (t.record i).holdCause = (match x.holdPending with
          | none => r.holdCause
          | some .masterHold => some .masterHold
          | some .thermalStall => some .thermalStall) ∧
        (t.record i).run = some (if x.holdPending = none then { x with phase := .off }
          else { x with phase := .off, outSince := none, stallTimer := none, holdPending := none }))

/-- R53, R55, R81, R83, R110, R112 to R114, R117: the completion of a sweep segment or a storm. FAULT, ABORTED and a short
segment are fault DRIVE_FAULT. A segment's counts are added to its zone and the cursor moves on; a storm's totals are added.
Then the step ends, or a hold that waits is taken, or the step goes on to its next operation. -/
def Obligations.SequencerOperationsAreAccounted : Prop :=
  ∀ (s : State) (i : SlotId) (c : Completion) (f : InFlight) (x : RunContext), s.Invariant → (s.dpe i).inFlight = some f →
    f.tag = c.tag → f.requester = .sq → (s.record i).state = .running → (s.record i).run = some x →
    let finished := c.status = .good ∨ c.status = .media
    let test := (s.slot i).test
    let left := fun (x : RunContext) (test : TestRecord) => s.setSlot i { s.slot i with
      record := { s.record i with run := some x }
      dpe := { s.dpe i with inFlight := none, port := .idle }
      test := test }
    let after := fun u : State => Host.Outcome.next (u.openPort i).endEvent
    (∀ start count : Nat, (f.op = .readVerify start count ∨ ∃ pattern, f.op = .writeVerify start count pattern) →
      let capacity := ((s.record i).identity.map fun d => d.capacity.toNat).getD 0
      let size := capacity / 16
      let z : Fin 16 := if 15 * size ≤ start then 15 else Fin.ofNat 16 (start / size)
      let past := if z = 15 then capacity else (z.val + 1) * size
      let old := test.zones[z]
      let rate := (s.classEntry i).minRate
      let slow := 0 < rate ∧ 0 < c.duration.toNat ∧ c.sectorsDone.toNat * 1000 < rate * c.duration.toNat
      let zone : Zone :=
        { covered := min 281474976710655 (old.covered + c.sectorsDone.toNat), hard := min 65535 (old.hard + c.hardErrors.toNat)
          soft := min 65535 (old.soft + c.softErrors.toNat), slow := min 255 (old.slow + if slow then 1 else 0)
          swept := old.swept || decide (start + count = past) }
      let u := left { x with cursor := x.cursor + count, retry := false } { test with zones := test.zones.set z zone }
      (¬ (finished ∧ c.sectorsDone.toNat = count) → Completes (.driveCompletion i c) s fun t => FaultTaken s t i .driveFault) ∧
      (finished → c.sectorsDone.toNat = count → exec (.driveCompletion i c) s =
        if capacity ≤ x.cursor + count then after (u.endOfStep i)
        else match x.holdPending with
          | some .masterHold => after (u.enterHeld i .masterHold)
          | some .thermalStall => after (u.enterHeld i .thermalStall)
          | none => after (u.proceedSweep i))) ∧
    (∀ (n : Nat) (pat pat' : StormPattern) (d : Nat) (b : Option Band) (l : Nat), f.op = .seekStorm n pat →
      s.stepEntry i = some (.seekstorm d pat' b l) →
      let u := left x { test with
        seeksDone := min 4294967295 (test.seeksDone + c.seeksDone.toNat)
        seekErrors := min 65535 (test.seekErrors + c.seekErrors.toNat) }
      (¬ finished → Completes (.driveCompletion i c) s fun t => FaultTaken s t i .driveFault) ∧
      (finished → exec (.driveCompletion i c) s =
        if d * 1000 ≤ x.credit then after (u.endOfStep i)
        else match x.holdPending with
          | some .masterHold => after (u.enterHeld i .masterHold)
          | some .thermalStall => after (u.enterHeld i .thermalStall)
          | none => after (u.proceedStorm i)))

/-- R54, R55, R63, R81: what a timeout does. That of an IDENTIFY or a storm is fault OP_TIMEOUT. That of a patrol poll is a
miss with a port reset, or at the third fault UNRESPONSIVE. That of a segment resets the port and sets the retry flag, the
segment waiting for the opening after it or for RESUME; with the flag set already it is fault OP_TIMEOUT. That a timeout
before its deadline changes nothing is the model's choice (log entry 5); that a HOLD step which holds its slot is logged once
more at a fault is read by inference (log entry 9). -/
def Obligations.TimeoutsResetOrFault : Prop :=
  ∀ (s : State) (i : SlotId) (f : InFlight), s.Invariant → (s.dpe i).inFlight = some f → (s.record i).feelsFault = true →
    let e := s.dpe i
    let command := Instr.operationTimeout i
    let reset := { e with inFlight := none, port := .resetting, resetTimer := some (afterSec s.now 5) }
    (reached s.now f.deadline = false → exec command s = .next s) ∧
    (reached s.now f.deadline = true →
      ((f.requester = .sm ∨ f.requester = .sq) → f.op = .identify →
        Completes command s fun t => FaultEnds s t i .opTimeout) ∧
      (f.requester = .sq → ∀ n pat, f.op = .seekStorm n pat → Completes command s fun t => FaultEnds s t i .opTimeout) ∧
      (f.requester = .patrol →
        (e.misses < 2 → exec command s = .next (s.setSlot i { s.slot i with dpe := { reset with misses := e.misses + 1 } })) ∧
        (2 ≤ e.misses → Completes command s fun t => FaultEnds s t i .unresponsive)) ∧
      (f.requester = .sq → ∀ start count : Nat,
        (f.op = .readVerify start count ∨ ∃ pattern, f.op = .writeVerify start count pattern) →
        (s.record i).state = .running → ∀ x, (s.record i).run = some x →
        let u := fun x : RunContext => s.setSlot i { s.slot i with record := { s.record i with run := some x }, dpe := reset }
        (x.retry = true → Completes command s fun t => FaultTaken s t i .opTimeout) ∧
        (x.retry = false → exec command s = .next (match x.holdPending with
          | some .masterHold => ((u { x with retry := true }).enterHeld i .masterHold).endEvent
          | some .thermalStall => ((u { x with retry := true }).enterHeld i .thermalStall).endEvent
          | none => ((u { x with retry := true }).proceedSweep i).endEvent))))

/-! ## Plans, steps and their requests (chapters 4, 5 and 6) -/

/-- R70 to R72: how LOAD_PLAN is judged, and the entries that it stores: each field clamped into its range, a band whose
limits then cross raised to its lower one. -/
def Obligations.LoadPlanReplacesPlan : Prop :=
  ∀ (s : State) (tag plan : Word) (ws : List StepWords), s.Clear .a → ws.length ≤ 85 →
    let load := exec (.loadPlan .a tag plan ws) s
    let celsius := fun t : Int => max (-40) (min 125 t)
    let band := fun b : Band => ({ lo := celsius b.lo, hi := max (celsius b.lo) (celsius b.hi) } : Band)
    let clamped := fun e : StepEntry => match e with
      | .soak d b l => StepEntry.soak (min 259200 d) (b.map band) (min 86400 l)
      | .sweep w => .sweep { w with
          segment := max 1 (min 4096 w.segment), band := w.band.map band, stall := min 86400 w.stall
          timeout := max 1 (min 600 w.timeout) }
      | .seekstorm d p b l => .seekstorm (min 259200 d) p (b.map band) (min 86400 l)
      | .powerCycle t => .powerCycle (min 3600 t)
      | .repeat_ t n => .repeat_ t (min 255 n)
      | .notify c => .notify c
      | .hold => .hold
      | .end_ => .end_
    let wrong := fun (k : Nat) (e : StepEntry) => match e with
      | .repeat_ t n => decide (k ≤ t ∨ n = 0)
      | .soak d _ _ => d == 0
      | .seekstorm d _ _ _ => d == 0
      | .powerCycle t => t == 0
      | _ => false
    (8 ≤ small plan → load = .next (s.replies .a .loadPlan tag .noSuch false)) ∧
    ∀ p : PlanId, small plan = p.val → match ws.mapM readStep with
      | none => load = .next (s.replies .a .loadPlan tag .malformed false)
      | some es =>
        let bad := es = [] ∨ 32 < es.length ∨ es.getLast? ≠ some .end_ ∨ ∃ k < es.length, ∃ e ∈ es[k]?, wrong k e = true
        (s.plans[p].useCount ≠ 0 → load = .next (s.replies .a .loadPlan tag .inUse)) ∧
        (s.plans[p].useCount = 0 → bad → load = .next (s.replies .a .loadPlan tag .badPlan)) ∧
        (s.plans[p].useCount = 0 → ¬ bad → load =
          .next (State.replies { s with plans := s.plans.set p { entries := es.map clamped, useCount := 0 } } .a .loadPlan tag
            (if es.map clamped = es then .ok else .clamped) true [BitVec.ofNat 32 es.length]))

/-- R75, R74: how START is judged, and what it does to the READY slots of its set, in the order named: test record and notify
code cleared, use count raised, a run context made, RUNNING, and step 0 begun. Each slot's word tells its own status. -/
def Obligations.StartRunsReadySlots : Prop :=
  ∀ (s : State) (tag plan : Word) (ws : List Word), s.Clear .a → ws.length ≤ 255 →
    let start := exec (.start .a tag plan ws) s
    let set := ws ≠ [] ∧ ws.length ≤ 24 ∧ (ws.map small).Nodup
    let status := fun w : Word => if h : small w < 24 then match (s.record ⟨small w, h⟩).state with
        | .disabled => Status.noSuch
        | .ready => .ok
        | _ => .wrongState
      else .noSuch
    (¬ set → start = .next (s.replies .a .start tag .malformed false)) ∧
    (set → 8 ≤ small plan → start = .next (s.replies .a .start tag .noSuch false)) ∧
    (set → ∀ p : PlanId, small plan = p.val →
      let begun := fun (s : State) (i : SlotId) => State.runStep { s.setSlot i { s.slot i with
          record := { s.record i with
            state := .running, purpose := none, holdCause := none, notifyCode := none
            run := some { plan := p, step := 0, phase := .issue, stepStart := s.now, credit := 0 } }
          sm := { (s.slot i).sm with declareTimer := none, unloadTimer := none }
          dpe := { s.dpe i with
            patrolTimer := if (s.dpe i).patrolTimer = none ∧ (s.dpe i).ready = true then
              some (afterSec s.now (s.patrolLength i)) else (s.dpe i).patrolTimer }
          test := {} } with
        plans := s.plans.set p { s.plans[p] with useCount := s.plans[p].useCount + 1 } } i 0
      (s.plans[p].entries = [] → start = .next (s.replies .a .start tag .badPlan)) ∧
      (s.plans[p].entries ≠ [] → start = .next ((ws.foldl (fun s w => if h : small w < 24 then
          if (s.record ⟨small w, h⟩).state = .ready then begun s ⟨small w, h⟩ else s else s) s).replies .a .start tag .ok true
        (ws.map fun w => word [place (small w) 8 8, place (status w).code 0 8]))))

/-- R77, R79, R80, R82, R84, R89: a timed step begins with its index, its start time, no credit and its band evaluated; then it
takes its first action, or, if a MASTER_HOLD waits, its slot is HELD before that action. That a step without a band has band
state NONE, a POWER_CYCLE always, is read by inference (log entry 14). -/
def Obligations.TimedStepBegins : Prop :=
  ∀ (s : State) (i : SlotId) (k : Nat) (x : RunContext) (e : StepEntry), (s.record i).state = .running →
    (s.record i).run = some x → s.plans[x.plan].entries[k]? = some e →
    let band := match e.band with
      | none => BandState.none
      | some b => if ∃ t ∈ (s.record i).temperature, b.lo ≤ t ∧ t ≤ b.hi then .in_ else .out
    let at_ := fun ph : StepPhase => s.setSlot i { s.slot i with
      record := { s.record i with
        run := some { x with
          step := k, phase := ph, stepStart := s.now, credit := 0, retry := false, band := band
          outSince := if band = .out then some s.now else none
          stallTimer := if band = .out ∧ e.stall ≠ 0 then some (afterSec s.now e.stall) else none
          cursor := if e.kind = .sweep then 0 else x.cursor } } }
    let first := fun (ph : StepPhase) (act : State → State) =>
      if x.holdPending = some .masterHold then (at_ ph).enterHeld i .masterHold else act (at_ ph)
    match e with
    | .soak .. => s.runStep i k = first .waitBand fun u => u
    | .sweep w => s.runStep i k =
        if w.quiet then first .waitGroup fun u => u.requestClaim i .quiet else first .issue fun u => u.proceedSweep i
    | .seekstorm .. => s.runStep i k = first .waitGroup fun u => u.requestClaim i .storm
    | .powerCycle _ => s.runStep i k = first .issue fun u => (u.setSlot i { u.slot i with
        dpe := { u.dpe i with ownerOp := some { owner := .sq, op := .standby, timeout := 15 } } }).openPort i
    | _ => True

/-- R77, R78, R86 to R88, R119: steps that take no time. Each is logged, the oldest of 64 entries giving way. NOTIFY sets the
code and raises its cause, REPEAT jumps or goes on by its counter, and both begin the next step with one unit of fuel less;
HOLD takes the slot to HELD; END gives the plan back and powers the slot down for grading. That the band state of these steps
is NONE is read by inference (log entry 14). That the SM carries the plan number of the power-down beside the record is read
by inference (log entry 12); the fuel is the model's own (log entry 33). -/
def Obligations.ZeroTimeStepsChain : Prop :=
  ∀ (fuel : Nat) (s : State) (i : SlotId) (k : Nat) (x : RunContext) (e : StepEntry), (s.record i).run = some x →
    s.plans[x.plan].entries[k]? = some e → s.Unlisted i → (s.record i).phase ≠ .seek →
    let old := (s.slot i).test
    let logged := fun o : StepOutcome => { old with
      log := (if old.log.length < 64 then old.log else old.log.drop 1) ++
        [{ step := k, kind := e.kind, outcome := o, credit := 0, at_ := s.now }]
      wrapped := old.wrapped || decide (64 ≤ old.log.length) }
    let y := { x with
      step := k, stepStart := s.now, credit := 0, retry := false, band := .none, outSince := none, stallTimer := none }
    let kept := if x.holdPending = some .thermalStall then none else x.holdPending
    let begin_ := State.beginStep (fuel + 1) i k s
    (∀ code, e = .notify code → begin_ = State.beginStep fuel i (k + 1) ((s.setSlot i { s.slot i with
      record := { s.record i with notifyCode := some code, run := some { y with holdPending := kept } }
      test := logged .done }).raiseTo .a (.slot .notify i))) ∧
    (∀ target count, e = .repeat_ target count → k < 32 →
      let counter := x.repeats[k]?.getD 0
      let u := fun n : Nat => s.setSlot i { s.slot i with
        record := { s.record i with run := some { y with repeats := x.repeats.setIfInBounds k n, holdPending := kept } }
        test := logged .done }
      begin_ = if counter < count then State.beginStep fuel i target (u (counter + 1))
        else State.beginStep fuel i (k + 1) (u 0)) ∧
    (e = .hold → begin_ = (s.setSlot i { s.slot i with
      record := { s.record i with run := some y }, test := logged .heldExit }).enterHeld i .planHold) ∧
    (e = .end_ → begin_ = State.powerDown { s.setSlot i { s.slot i with
        record := { s.record i with run := none }
        sm := { (s.slot i).sm with carriedPlan := some x.plan }
        test := logged .done } with
      plans := s.plans.set x.plan { s.plans[x.plan] with useCount := s.plans[x.plan].useCount - 1 } } i .grade)

/-- R77, R79, R84, R90: a SOAK whose credit has come to its duration, an off phase that has come to its off time, and a stall
timer. A step's end logs it DONE with its credit in s, gives back claim, seek load and entry, drops a THERMAL_STALL that
waits, and begins the next step. What is not due changes nothing: the model's choice (log entry 5). -/
def Obligations.StepTimesAreReached : Prop :=
  ∀ (s : State) (i : SlotId) (x : RunContext) (e : StepEntry), s.AttentionSafe → (s.record i).run = some x →
    s.stepEntry i = some e →
    let running := (s.record i).state = .running
    let stalled := running ∧ ∃ d ∈ x.stallTimer, reached s.now d = true
    let busy := ∃ f ∈ (s.dpe i).inFlight, f.requester = .sq
    let old := (s.slot i).test
    let logged := s.setSlot i { s.slot i with
      test := { old with
        log := (if old.log.length < 64 then old.log else old.log.drop 1) ++
          [{ step := x.step, kind := e.kind, outcome := .done, credit := x.credit / 1000, at_ := s.now }]
        wrapped := old.wrapped || decide (64 ≤ old.log.length) } }
    let given := ((logged.returnTray i).releaseSeek i).removeAdmission i
    (s.endOfStep i = (given.modRun i fun y => { y with
      outSince := none, stallTimer := none
      holdPending := if y.holdPending = some .thermalStall then none else y.holdPending }).runStep i (x.step + 1)) ∧
    (match e with
      | .soak d _ _ => exec (.soakCreditReached i) s =
          if running ∧ x.band ≠ .out ∧ d * 1000 ≤ x.credit then .next (s.endOfStep i).endEvent else .next s
      | _ => exec (.soakCreditReached i) s = .next s) ∧
    (match e with
      | .powerCycle t => exec (.offTimeReached i) s =
          if running ∧ x.phase = .off ∧ t * 1000 ≤ x.credit then .next (((s.setSlot i { s.slot i with
            record := { s.record i with run := some { x with phase := .waitSpinup } } }).fileAdmission i .spinup).endEvent)
          else .next s
      | _ => exec (.offTimeReached i) s = .next s) ∧
    (¬ stalled → exec (.stallTimerExpiry i) s = .next s) ∧
    (stalled → busy → exec (.stallTimerExpiry i) s = .next (s.setSlot i { s.slot i with
      record := { s.record i with run := some { x with stallTimer := none, holdPending := some .thermalStall } } })) ∧
    (stalled → ¬ busy → exec (.stallTimerExpiry i) s = .next (s.enterHeld i .thermalStall).endEvent)

/-- R92, R93, R86, R90: entry to HELD gives back the tray claim, the seek load and the queue entries, takes back the
operation not yet issued, records the resume point, and stops the stall timing. PLAN_HOLD and THERMAL_STALL raise HELD toward
the test station. The power stays as it is but for the seek load. That a SWEEP without quiet flag resumes in phase ISSUE,
whatever phase it was held from, is the model's choice (log entry 37). -/
def Obligations.EntryToHeldGivesBack : Prop :=
  ∀ (s : State) (i : SlotId) (x : RunContext) (e : StepEntry) (cause : HoldCause), s.Invariant →
    (s.record i).state = .running → (s.record i).run = some x → s.stepEntry i = some e →
    let t := s.enterHeld i cause
    let resume := match e with
      | .soak .. => StepPhase.waitBand
      | .sweep w => if w.quiet then .waitGroup else .issue
      | .seekstorm .. => .waitGroup
      | .powerCycle _ =>
        if x.phase = .off ∨ x.phase = .waitSpinup ∨ x.phase = .surge ∨ x.phase = .reidentify then x.phase else .issue
      | _ => .issue
    t.Unlisted i ∧ OthersMayStart s t i ∧ SetupStays s t ∧ t.plans = s.plans ∧ (t.slot i).test = (s.slot i).test ∧
    (t.dpe i) = { s.dpe i with ownerOp := none } ∧ (t.slot i).pau = (s.slot i).pau ∧
    (∃ ph, (e ≠ .hold → ph = resume) ∧ t.record i = { s.record i with
      state := .held, holdCause := some cause, purpose := none
      phase := if (s.record i).phase = .seek then .run else (s.record i).phase
      run := some { x with phase := ph, outSince := none, stallTimer := none, holdPending := none } }) ∧
    ((cause = .planHold ∨ cause = .thermalStall) → s.Enabled .a (.slot .held i) → t.Pending .a (.slot .held i)) ∧
    ((cause = .masterHold ∨ cause = .reset) → t.attA = s.attA) ∧ t.attB = s.attB

/-- R91, R93, R89: HOLD of a RUNNING slot is taken at once, or waits while an operation of the SQ is in flight or a
POWER_CYCLE step is in SURGE or REIDENTIFY; a slot already held or holding changes nothing. RESUME of a RUNNING slot drops
the hold that waits, and is refused with none; that of a HELD slot moves it to RUNNING, evaluates the band afresh and goes on
from the resume point, by the kind of the step. That a step without a band has band state NONE is read by inference (log
entry 14). -/
def Obligations.HoldAndResume : Prop :=
  (∀ (s : State) (tag w : Word) (i : SlotId) (x : RunContext), s.Clear .a → small w = i.val →
     let hold := exec (.hold .a tag w) s
     let waits := (∃ f ∈ (s.dpe i).inFlight, f.requester = .sq) ∨ x.phase = .surge ∨ x.phase = .reidentify
     ((s.record i).state = .held → hold = .next (s.replies .a .hold tag .ok)) ∧
     ((s.record i).state = .running → (s.record i).run = some x →
       hold = if x.holdPending ≠ none then .next (s.replies .a .hold tag .ok)
         else if waits then .next ((s.setSlot i { s.slot i with
           record := { s.record i with run := some { x with holdPending := some .masterHold } } }).replies .a .hold tag .ok)
         else .next ((s.enterHeld i .masterHold).replies .a .hold tag .ok))) ∧
  (∀ (s : State) (tag w : Word) (i : SlotId) (x : RunContext) (e : StepEntry), s.Clear .a → small w = i.val →
     (s.record i).run = some x → s.stepEntry i = some e →
     let resume := exec (.resume .a tag w) s
     let ok := fun u : State => Host.Outcome.next (u.replies .a .resume tag .ok)
     let band := match e.band with
       | none => BandState.none
       | some b => if ∃ t ∈ (s.record i).temperature, b.lo ≤ t ∧ t ≤ b.hi then .in_ else .out
     let banded := fun x : RunContext => { x with
       band := band
       outSince := if band = .out then some s.now else if e.band = none then x.outSince else none
       stallTimer := if band = .out then if e.stall = 0 then none else some (afterSec s.now e.stall)
         else if e.band = none then x.stallTimer else none }
     let put := fun y : RunContext => s.setSlot i { s.slot i with record := { s.record i with run := some y } }
     let u := fun ph : StepPhase => s.setSlot i { s.slot i with
       record := { s.record i with
         state := .running, purpose := none, holdCause := none, run := some { banded x with phase := ph } }
       sm := { (s.slot i).sm with declareTimer := none, unloadTimer := none } }
     let identify := fun u : State => (u.setSlot i { u.slot i with
       dpe := { u.dpe i with ownerOp := some { owner := .sq, op := .identify, timeout := 10 } } }).openPort i
     let standby := fun u : State => (u.setSlot i { u.slot i with
       dpe := { u.dpe i with ownerOp := some { owner := .sq, op := .standby, timeout := 15 } } }).openPort i
     ((s.record i).state = .running → match x.holdPending with
       | none => resume = .next (s.replies .a .resume tag .wrongState)
       | some .masterHold => resume = ok (put { x with holdPending := none })
       | some .thermalStall => resume = ok (put (banded { x with holdPending := none }))) ∧
     ((s.record i).state = .held → match e with
       | .soak .. => resume = ok (u .waitBand)
       | .sweep w => resume = ok (if w.quiet then (u .waitGroup).requestClaim i .quiet else (u x.phase).proceedSweep i)
       | .seekstorm d _ _ _ => resume =
           ok (if d * 1000 ≤ x.credit then (u x.phase).endOfStep i else (u .waitGroup).requestClaim i .storm)
       | .powerCycle _ => match x.phase with
         | .off => resume = ok (u .off)
         | .waitSpinup => resume = ok ((u .waitSpinup).fileAdmission i .spinup)
         | .surge => resume = ok (if (s.dpe i).ready then identify (u .reidentify)
             else (((u .surge).cutPower i).setPhase i .waitSpinup).fileAdmission i .spinup)
         | .reidentify => resume = ok (identify (u .reidentify))
         | _ => resume = ok (standby (u .issue))
       | .hold => resume = ok ((u x.phase).runStep i (x.step + 1))
       | _ => True))

/-- R94, R20, R17, R18, R19, R21, R120, R129: ABORT tears the slot down, the step logged ABORTED, and makes an ABORTED
verdict in bin REWORK with the plan of the run or of the grading. From GRADING, with the power off, or with a drive not
ready, the slot is DONE at once; with a ready drive it powers down for ABORT, carrying the verdict, a STANDBY waiting or
issued. That a HOLD step which holds its slot is logged a second time is read by inference (log entry 9). So is that the SM
carries the verdict of the power-down beside the record (log entry 12). -/
def Obligations.AbortMakesVerdict : Prop :=
  ∀ (s : State) (tag w : Word) (i : SlotId) (x : RunContext), s.Clear .a → s.Invariant → small w = i.val →
    let verdict := fun p : Option PlanId => ({ kind := .aborted, bin := .rework, plan := p, at_ := s.now } : Verdict)
    let answered := fun t : State => Answered s t .a (replyTo .abort tag .ok true [])
    let placed := fun t : State => (t.record i).placement = ((s.openLotOf .rework).map Placement.lot).getD .pending
    let done := fun (t : State) (p : Option PlanId) => TornDown s t i ∧ answered t ∧ (t.record i).state = .done ∧
      (t.record i).phase = .off ∧ (t.record i).verdict = some (verdict p) ∧ placed t ∧
      ∀ q : Port, s.Enabled q (.slot .verdict i) → t.Pending q (.slot .verdict i)
    ((s.record i).state = .grading → Completes (.abort .a tag w) s fun t => done t (s.gradingPlan i) ∧
      (∀ g ∈ s.engine, (∀ e ∈ s.gradingQueue, e.slot ≠ i) →
        t.engine = some (if g.slot = i then { g with discard := true } else g))) ∧
    ((s.record i).run = some x → ((s.record i).state = .running ∨ (s.record i).state = .held) →
      ((s.record i).phase = .off ∨ (s.dpe i).ready = false → Completes (.abort .a tag w) s fun t => done t (some x.plan) ∧
        (t.slot i).test = s.loggedTest i .aborted) ∧
      ((s.record i).phase ≠ .off → (s.dpe i).ready = true → Completes (.abort .a tag w) s fun t => TornDown s t i ∧
        answered t ∧ (t.record i).state = .poweringDown ∧ (t.record i).purpose = some .abort ∧
        (t.slot i).sm.carriedVerdict = some (verdict (some x.plan)) ∧ (t.slot i).test = s.loggedTest i .aborted ∧
        (t.dpe i).patrolTimer = some (afterSec s.now (s.patrolLength i)) ∧ StandbyAsked s t i))

/-- R76: how RETEST is judged, and what an accepted one does: the drive leaves its pending queue, verdict, notify code and
test record are cleared, the plan waits as start-on-ready plan, and the slot joins the admission queue in SPIN_WAIT. A slot
that waits without a verdict, which no run reaches, stays in its queue: the model's choice (log entry 35). -/
def Obligations.RetestSpinsUpAgain : Prop :=
  ∀ (s : State) (tag w plan : Word) (i : SlotId), s.Clear .a → small w = i.val → (s.record i).state ≠ .disabled →
    let retest := exec (.retest .a tag w plan) s
    (8 ≤ small plan → retest = .next (s.replies .a .retest tag .noSuch false)) ∧
    ∀ p : PlanId, small plan = p.val →
      retest =
        if s.plans[p].entries = [] then .next (s.replies .a .retest tag .badPlan)
        else if (s.record i).state ≠ .done then .next (s.replies .a .retest tag .wrongState)
        else if (s.record i).inLot then .next (s.replies .a .retest tag .inLot)
        else
          let waits := (s.record i).placement = .pending ∧ (s.record i).verdict.isSome
          .next ((State.fileAdmission { s.setSlot i { s.slot i with
              record := { s.record i with
                state := .spinWait, purpose := none, holdCause := none, verdict := none, notifyCode := none
                startPlan := some p, placement := if waits then .none else (s.record i).placement }
              sm := { (s.slot i).sm with declareTimer := none, unloadTimer := none }
              test := {} } with
            plans := s.plans.set p { s.plans[p] with useCount := s.plans[p].useCount + 1 }
            binQueues := match (s.record i).verdict with
              | some v => if waits then s.binQueues.set v.bin.index (s.binQueues[v.bin.index].filter fun j => j != i)
                  else s.binQueues
              | none => s.binQueues } i .spinup).replies .a .retest tag .ok)

/-! ## Tray vibration groups (chapter 5) -/

/-- R96 to R103: a claim is granted at once when nobody waits and its kind is compatible, else it waits at the tail; a slot
that is in its tray already asks for nothing. A tray's head is tested: one that is not compatible stays; one that is joins
the holders with its kind, its step goes on, and the next is tested at once. Returning frees holder and entry alike. It
starts a test where a holder or the head has gone and none where an entry behind the head has; every other entry then still
waits, in order, or its slot has become a holder of its kind, and a head that still waits after a test is not compatible. -/
def Obligations.TrayClaimsAreGrantedInOrder : Prop :=
  ∀ (s : State) (i : SlotId),
    let n := trayOf i
    let tray := s.trays[n]
    let holds := fun k : ClaimKind => ∃ h ∈ tray.holders, h.kind = k
    let other := fun k : ClaimKind => if k = .quiet then ClaimKind.storm else .quiet
    let left := fun t : Tray => ({ s with trays := s.trays.set n t } : State)
    let granted := fun (t : Tray) (j : SlotId) (k : ClaimKind) =>
      let u := left { t with holders := t.holders ++ [⟨j, k⟩] }
      if k = .quiet then u.proceedSweep j else (u.setPhase j .waitLoad).fileAdmission j .seek
    let waiting := tray.queue.filter fun e => e.slot != i
    let tested := (∃ h ∈ tray.holders, h.slot = i) ∨ ∃ e ∈ tray.queue.head?, e.slot = i
    (i ∈ tray.slots → ∀ k, s.requestClaim i k = s) ∧
    (∀ k, i ∉ tray.slots → tray.queue = [] → ¬ holds (other k) → s.requestClaim i k = granted tray i k) ∧
    (∀ k, i ∉ tray.slots → (tray.queue ≠ [] ∨ holds (other k)) →
      s.requestClaim i k = left { tray with queue := tray.queue ++ [⟨i, k, s.now⟩] }) ∧
    (tray.queue = [] → s.testTray n = s) ∧
    (∀ e rest, tray.queue = e :: rest →
      s.testTray n = if holds (other e.kind) then s else (granted { tray with queue := rest } e.slot e.kind).testTray n) ∧
    (i ∉ tray.slots → s.returnTray i = s) ∧
    (tray.Sound n → i ∈ tray.slots →
      let t := s.returnTray i
      (tested → t = (left { tray with holders := tray.holders.filter (fun h => h.slot != i), queue := waiting }).testTray n ∧
        ∀ e ∈ (t.trays[n]).queue.head?, ∃ h ∈ (t.trays[n]).holders, h.kind ≠ e.kind) ∧
      (¬ tested → t = left { tray with queue := waiting }) ∧
      i ∉ (t.trays[n]).slots ∧ (t.trays[n]).queue <:+ waiting ∧
      (∀ h ∈ tray.holders, h.slot ≠ i → h ∈ (t.trays[n]).holders) ∧
      (∀ e ∈ tray.queue, e.slot ≠ i → e ∈ (t.trays[n]).queue ∨ ⟨e.slot, e.kind⟩ ∈ (t.trays[n]).holders) ∧
      ∀ m : TrayId, m ≠ n → t.trays[m] = s.trays[m])


/-! ## Grading (chapter 7) -/

/-- R123, R124, R126, R127: SET_GRADE_TABLE is refused BUSY while the engine grades and BAD_TABLE when the thresholds are not
strictly ascending; else it replaces the table, clamped, raises the revision, clears the unset-notice flag, answers with the
table as taken, and the engine takes the head of the queue. -/
def Obligations.SetGradeTableReplacesTable : Prop :=
  ∀ (s : State) (tag w1 w2 w3 w4 w5 : Word), s.Clear .a →
    let set := exec (.setGradeTable .a tag w1 w2 w3 w4 w5) s
    let k := max 1 (min 5 (bits w1 0 8))
    let g : GradeTable :=
      { set := true, revision := s.grade.revision + 1
        wH := max 1 (min 63 (bits w1 24 8)), wS := min 15 (bits w1 16 8), wT := min 15 (bits w1 8 8)
        hardLimit := bits w2 16 16, slowLimit := min 255 (bits w3 16 16), seekLimit := bits w2 0 16
        binCount := k
        thresholds := [bits w3 0 16, bits w4 16 16, bits w4 0 16, bits w5 16 16, bits w5 0 16].take k }
    let written := g.wH = bits w1 24 8 ∧ g.wS = bits w1 16 8 ∧ g.wT = bits w1 8 8 ∧ g.slowLimit = bits w3 16 16 ∧ k = bits w1 0 8
    let u := { s with grade := g, unsetNotice := false }
    let taken := match s.gradingQueue with
      | [] => u
      | e :: rest => { u with
          gradingQueue := rest
          engine := some { slot := e.slot, plan := e.plan, revision := g.revision, taken := s.now, discard := false
                           copy := (s.slot e.slot).test } }
    (s.engine ≠ none → set = .next (s.replies .a .setGradeTable tag .busy)) ∧
    (s.engine = none → ¬ g.thresholds.Pairwise (fun a b => a < b) → set = .next (s.replies .a .setGradeTable tag .badTable)) ∧
    (s.engine = none → g.thresholds.Pairwise (fun a b => a < b) → set =
      .next (State.replies taken .a .setGradeTable tag (if written then .ok else .clamped) true g.words))

/-- R132 to R140: the bin, the score and the flags that a grade table gives to a test record. -/
def Obligations.GradeIsComputed : Prop :=
  ∀ (g : GradeTable) (t : TestRecord),
    let zones := t.zones.toList
    let units := fun z : Zone => z.covered / 65536
    let weight := fun z : Zone => g.wH * z.hard + g.wS * z.soft
    let density := fun w v : Nat => if v = 0 then if w = 0 then 0 else 65535 else min 65535 (w * 4096 / v)
    let worst := (zones.map fun z => density (weight z) (units z)).foldl max 0
    let whole := density (zones.map weight).sum (zones.map units).sum
    let score := min 65535 ((3 * worst + whole + 2) / 4 + g.wT * t.thermal)
    let place := ((g.thresholds.take 5).findIdx? fun t => decide (score ≤ t)).getD 5
    let bins := [Bin.s1, .s2, .s3, .s4, .s5, .reject, .reject]
    let hard := zones.any fun z => decide (g.hardLimit < z.hard)
    let seek := decide (g.seekLimit < t.seekErrors)
    let slow := zones.any fun z => decide (g.slowLimit < z.slow)
    (zones.all Zone.swept = false → grade g t = (.rework, 0, { incomplete := true })) ∧
    (zones.all Zone.swept = true → (hard || seek) = true → grade g t = (.reject, score, { hardLimit := hard, seekLimit := seek })) ∧
    (zones.all Zone.swept = true → (hard || seek) = false → grade g t =
      if slow = true ∧ place < 5 then (bins[place + 1]?.getD .reject, score, { demoted := true })
      else (bins[place]?.getD .reject, score, {}))

/-- R128, R141, R20, R21, R144: the engine's completion. An IDLE engine has none, and the model leaves the state unchanged
(log entry 11). A marked grading, or one whose slot has left GRADING (R20), is dropped; else the slot is DONE with the GRADED
verdict, placed, with VERDICT raised. The engine then takes the next head. That the cause of a lot which the placement fills
comes before VERDICT, and what the SM carries beside the record, are read by inference (log entries 16, 12). -/
def Obligations.GradingCompletionMakesVerdict : Prop :=
  ∀ (s : State) (e : Grading), s.AttentionSafe →
    (s.engine = none → exec .gradingCompletion s = .next s) ∧
    (s.engine = some e →
      let i := e.slot
      let r := grade s.grade e.copy
      let verdict : Verdict :=
        { kind := .graded, bin := r.1, score := some r.2.1, flags := r.2.2, revision := some e.revision, plan := some e.plan
          at_ := s.now }
      let next := fun u : State => Host.Outcome.next (State.endEvent (match s.gradingQueue with
        | [] => { u with engine := none }
        | q :: rest => if s.grade.set then { u with
            gradingQueue := rest
            engine := some { slot := q.slot, plan := q.plan, revision := s.grade.revision, taken := s.now, discard := false
                             copy := (s.slot q.slot).test } }
          else { u with engine := none }))
      exec .gradingCompletion s =
        if e.discard = true ∨ (s.record i).state ≠ .grading then next s
        else next ((((s.setSlot i { s.slot i with
          record := { s.record i with state := .done, purpose := none, holdCause := none, verdict := some verdict }
          sm := { (s.slot i).sm with
            declareTimer := none, unloadTimer := none, carriedPlan := none
            carriedVerdict := none } }).placeSlot i).raiseTo .a (.slot .verdict i)).raiseTo .b (.slot .verdict i)))

/-! ## Bins, lots and picking (chapter 8) -/

/-- R144, R145, R161: placement appends an entry to the OPEN lot of the verdict's bin opened earliest, which becomes FULL at
its capacity and raises LOT_FULL, or else puts the slot at the tail of the bin's pending queue. REQUEUE places a slot in DONE
with placement NONE and tells where; any other is refused. That the lot byte of the REQUEUE reply reads 0 for placement
PENDING is the model's choice (log entry 40). -/
def Obligations.PlacementFillsLotOrQueue : Prop :=
  ∀ (s : State) (tag w : Word) (i : SlotId) (v : Verdict), (s.record i).verdict = some v →
    let put := fun p : Placement => s.setSlot i { s.slot i with record := { s.record i with placement := p } }
    let lot := s.opening.find? fun n => s.lots[n].state == .open_ && s.lots[n].bin == v.bin
    let serial := ((s.record i).identity.map Identity.serial).getD (Vector.replicate 20 32)
    let entry : LotEntry :=
      { serial := serial, slot := i, kind := v.kind, score := if v.kind = VerdictKind.graded then v.score else none, state := .unpicked }
    (lot = none → s.placeSlot i =
      { put .pending with binQueues := s.binQueues.set v.bin.index (s.binQueues[v.bin.index] ++ [i]) }) ∧
    (∀ n, lot = some n →
      let entries := s.lots[n].entries ++ [entry]
      s.placeSlot i =
        if entries.length = s.lots[n].capacity then
          State.raiseTo { put (.lot n) with
            lots := s.lots.set n { s.lots[n] with entries := entries, state := .full } } .b (.rack (.lotFull n))
        else { put (.lot n) with lots := s.lots.set n { s.lots[n] with entries := entries } }) ∧
    (s.Clear .b → small w = i.val → (s.record i).state ≠ .disabled → exec (.requeue .b tag w) s =
      if (s.record i).state = .done ∧ (s.record i).placement = .none then
        .next ((s.placeSlot i).replies .b .requeue tag .ok true [match lot with
          | none => word [place 1 8 8, place 0 0 8]
          | some n => word [place 2 8 8, place n.val 0 8]])
      else .next (s.replies .b .requeue tag .wrongState))

/-- R148, R145: OPEN_LOT is MALFORMED for a bin beyond the seven and refused NO_ROOM with no FREE lot; else the lowest FREE lot
opens, and the oldest slots of its bin's pending queue move into it up to its capacity. A slot without a verdict, which no
pending queue holds in a run, would end the move: the model's choice (log entry 35). -/
def Obligations.OpenLotTakesQueue : Prop :=
  ∀ (s : State) (tag bin capacity l0 l1 l2 l3 : Word), s.Clear .b →
    let open_ := exec (.openLot .b tag bin capacity l0 l1 l2 l3) s
    let free := (List.finRange 8).find? fun n : LotId => s.lots[n].state == .free
    (7 ≤ small bin → open_ = .next (s.replies .b .openLot tag .malformed false)) ∧
    (small bin < 7 → free = none → open_ = .next (s.replies .b .openLot tag .noRoom)) ∧
    ∀ (b : Bin) (n : LotId), small bin = b.code → free = some n →
      let cap := max 1 (min 60 capacity.toNat)
      let moved := ((s.binQueues[b.index]).takeWhile fun j => (s.record j).verdict.isSome).take cap
      let full := moved.length = cap
      let u := { s with
        slots := Vector.ofFn fun j => if j ∈ moved then
          { s.slot j with record := { s.record j with placement := .lot n } } else s.slot j
        lots := s.lots.set n
          { state := if full then .full else .open_, bin := b, capacity := cap, label := unpackLabel l0 l1 l2 l3, opened := s.now
            entries := moved.map fun j =>
              { serial := ((s.record j).identity.map Identity.serial).getD (Vector.replicate 20 32), slot := j
                kind := ((s.record j).verdict.map Verdict.kind).getD .graded
                score := (s.record j).verdict.bind fun v => if v.kind = VerdictKind.graded then v.score else none
                state := .unpicked } }
        binQueues := s.binQueues.set b.index ((s.binQueues[b.index]).drop moved.length)
        opening := s.opening ++ [n] }
      open_ = .next ((if full then u.raiseTo .b (.rack (.lotFull n)) else u).replies .b .openLot tag
        (if cap = capacity.toNat then .ok else .clamped) true
        [word [place n.val 24 8, place cap 16 8, place moved.length 8 8, place (if full then 2 else 1) 0 8]])

/-- R149 to R151: CLOSE_LOT of an OPEN lot and RELEASE_LOT of a COMPLETE one; a number above 7 is refused NO_SUCH, any other
state WRONG_STATE. A closed lot without entries is FREE; one whose entries are all PICKED or LOST is COMPLETE. -/
def Obligations.LotsAreClosedAndReleased : Prop :=
  ∀ (s : State) (tag w : Word), s.Clear .b →
    let close := exec (.closeLot .b tag w) s
    let release := exec (.releaseLot .b tag w) s
    (8 ≤ small w → close = .next (s.replies .b .closeLot tag .noSuch false) ∧
      release = .next (s.replies .b .releaseLot tag .noSuch false)) ∧
    ∀ n : LotId, small w = n.val →
      let l := s.lots[n]
      let freed := { s with
        lots := s.lots.set n { state := .free, bin := .s1, capacity := 0, label := Vector.replicate 16 32, opened := 0, entries := [] }
        opening := s.opening.filter fun m => m != n }
      let closed := fun st : LotState =>
        ({ s with lots := s.lots.set n { l with state := st, capacity := l.entries.length } } : State)
      let finished := ∀ e ∈ l.entries, e.state = .picked ∨ e.state = .lost
      (close = if l.state ≠ .open_ then .next (s.replies .b .closeLot tag .wrongState)
        else if l.entries = [] then .next (State.replies freed .b .closeLot tag .ok)
        else if finished then .next (((closed .complete).raiseTo .b (.rack (.lotComplete n))).replies .b .closeLot tag .ok)
        else .next ((closed .closed).replies .b .closeLot tag .ok)) ∧
      (release = if l.state = .complete then .next (State.replies freed .b .releaseLot tag .ok)
        else .next (s.replies .b .releaseLot tag .wrongState))

/-- R152, R154, R23: NEXT_PICK names the earliest UNPICKED entry of an OPEN, FULL or CLOSED lot: the entry is PICKING and its
slot UNLOADING with its timer running. CANCEL_PICK takes a slot in UNLOADING back to DONE: with its entry UNPICKED again, or
placed again with the verdict it has, or with a new ABORTED verdict. The six words of a NEXT_PICK that names none are read
from R192 by inference (log entry 21). So are that the placement of a slot with a verdict raises LOT_FULL if it fills a lot,
although R154 says that no cause is raised (log entry 41), that the cause of a lot which the placement fills comes before
VERDICT, and what the SM carries beside the record (log entries 16, 12). -/
def Obligations.PicksAreNamedAndCancelled : Prop :=
  ∀ (s : State) (tag w : Word) (n : LotId) (i : SlotId), s.Clear .b →
    let pick := exec (.nextPick .b tag w) s
    let cancel := exec (.cancelPick .b tag w) s
    let l := s.lots[n]
    let becomes := fun old new : EntryState => ({ l with
      entries := l.entries.map fun e => if e.slot = i ∧ e.state = old then { e with state := new } else e } : Lot)
    let ok := fun u : State => Host.Outcome.next (u.replies .b .cancelPick tag .ok)
    let done := s.setSlot i { s.slot i with
      record := { s.record i with state := .done, purpose := none, holdCause := none }
      sm := { (s.slot i).sm with declareTimer := none, unloadTimer := none } }
    (8 ≤ small w → pick = .next (s.replies .b .nextPick tag .noSuch false)) ∧
    (small w = n.val → (l.state = .free ∨ l.state = .complete) → pick = .next (s.replies .b .nextPick tag .wrongState)) ∧
    (small w = n.val → l.state ≠ .free → l.state ≠ .complete →
      ((∀ e ∈ l.entries, e.state ≠ .unpicked) → pick = .next (s.replies .b .nextPick tag .ok true [0, 0, 0, 0, 0, 0])) ∧
      ∀ e ∈ l.entries.find? (fun e => e.state == .unpicked), e.slot = i → (s.record i).state = .done →
        pick = .next (State.replies { s.setSlot i { s.slot i with
            record := { s.record i with state := .unloading, purpose := none, holdCause := none }
            sm := { (s.slot i).sm with
              declareTimer := none, unloadTimer := some (afterSec s.now s.line.unloadTime), carriedPlan := none
              carriedVerdict := none } } with
          lots := s.lots.set n (becomes .unpicked .picking) } .b .nextPick tag .ok true
          (word [place 1 31 1, place i.val 0 8] :: packBytes e.serial.toList))) ∧
    (small w = i.val → (s.record i).state = .unloading →
      ((s.record i).placement = .lot n → (∃ e ∈ l.entries, e.slot = i ∧ e.state = .picking) →
        cancel = ok { done with lots := s.lots.set n (becomes .picking .unpicked) }) ∧
      ((s.record i).placement = .none → (s.record i).verdict.isSome = true → cancel = ok (done.placeSlot i)) ∧
      ((s.record i).placement = .none → (s.record i).verdict = none → cancel =
        ok ((((done.setSlot i { done.slot i with
          record := { done.record i with verdict := some { kind := .aborted, bin := .rework, plan := none, at_ := s.now } }
          sm := { (done.slot i).sm with carriedPlan := none, carriedVerdict := none } }).placeSlot i).raiseTo .a
            (.slot .verdict i)).raiseTo .b (.slot .verdict i))))

/-- R156 to R158, R17 to R19, R129: UNLOAD from DONE is refused IN_LOT for a slot in a lot, else the slot leaves its pending
queue and is UNLOADING with its verdict. A forced unload, in test custody only with the force indication, tears the slot
down, the step of a run logged ABORTED: with a ready drive it powers down for UNLOAD, a STANDBY waiting or issued, else its
power is cut and it is UNLOADING at once, with no verdict made. A grading leaves the queue, or is marked in the engine for
discard. That UNLOAD's force word is read in bit 0 alone is read by inference (log entry 22). So are that a HOLD step which
holds its slot is logged a second time (log entry 9), and that the SM carries plan and verdict of a power-down beside the
record (log entry 12). -/
def Obligations.UnloadTakesDriveOut : Prop :=
  ∀ (s : State) (tag w force : Word) (i : SlotId), s.Clear .b → s.Invariant → small w = i.val →
    let r := s.record i
    let unload := exec (.unload .b tag w force) s
    let timer := some (afterSec s.now s.line.unloadTime)
    let answered := fun (t : State) (st : Nat) => Answered s t .b (replyTo .unload tag .ok true [place st 0 8])
    let forced := r.state = .loaded ∨ r.state = .spinWait ∨ r.state = .spinning ∨ r.state = .identifying ∨ r.state = .ready ∨
      force.getLsbD 0 = true ∧ (r.state = .running ∨ r.state = .held ∨ r.state = .grading ∨
        r.state = .poweringDown ∧ (r.purpose = some .grade ∨ r.purpose = some .abort))
    (r.state = .done → r.inLot = true → unload = .next (s.replies .b .unload tag .inLot)) ∧
    (r.state = .done → r.inLot = false → ∀ v, r.verdict = some v →
      unload = .next (State.replies { s.setSlot i { s.slot i with
          record := { r with state := .unloading, purpose := none, holdCause := none, placement := .none }
          sm := { (s.slot i).sm with declareTimer := none, unloadTimer := timer, carriedPlan := none, carriedVerdict := none } } with
        binQueues := if r.placement = .pending then
          s.binQueues.set v.bin.index (s.binQueues[v.bin.index].filter fun j => j != i) else s.binQueues }
        .b .unload tag .ok true [place 12 0 8])) ∧
    (r.state ≠ .done → r.state ≠ .disabled → ¬ forced → unload = .next (s.replies .b .unload tag .wrongState)) ∧
    (forced → r.phase ≠ .off → (s.dpe i).ready = true → Completes (.unload .b tag w force) s fun t =>
      TornDown s t i ∧ answered t 9 ∧ (t.record i).state = .poweringDown ∧ (t.record i).purpose = some .unload ∧
      StandbyAsked s t i ∧ (t.dpe i).patrolTimer = some (afterSec s.now (s.patrolLength i)) ∧
      (t.slot i).test = s.loggedTest i .aborted ∧
      (t.slot i).sm.carriedVerdict = none ∧ (t.record i).verdict = r.verdict ∧ (t.record i).placement = r.placement ∧
      (t.record i).cls = r.cls ∧ (t.record i).identity = r.identity ∧ ∀ p : Port, (t.att p).slotSets[i] = []) ∧
    (forced → (r.phase = .off ∨ (s.dpe i).ready = false) → ¬ (r.phase = .off ∧ (s.dpe i).ready = true) →
      Completes (.unload .b tag w force) s fun t =>
        TornDown s t i ∧ answered t 12 ∧ (t.record i).state = .unloading ∧ (t.record i).phase = .off ∧
        (t.slot i).test = s.loggedTest i .aborted ∧
        (r.state = .grading → ∀ g ∈ s.engine, g.slot = i → (∀ e ∈ s.gradingQueue, e.slot ≠ i) →
          t.engine = some { g with discard := true }) ∧
        (t.slot i).sm.unloadTimer = timer ∧ (t.slot i).sm.carriedVerdict = none ∧ (t.record i).verdict = r.verdict ∧
        (t.record i).placement = r.placement ∧ (t.record i).cls = r.cls ∧ (t.record i).identity = r.identity ∧
        ∀ p : Port, (t.att p).slotSets[i] = [])

/-- R159, R160, R150: WITHDRAW takes a slot in DONE out of its pending queue or its lot. An OPEN lot stays OPEN; a FULL one
opens again and takes from the pending queue up to its capacity; a CLOSED one keeps the capacity of its entries, is FREE with
none, and COMPLETE when all are PICKED or LOST. A slot without a verdict in a pending queue, which no run reaches, would end
the move into the lot: the model's choice (log entry 35). -/
def Obligations.WithdrawLeavesQueueOrLot : Prop :=
  ∀ (s : State) (tag w : Word) (i : SlotId) (n : LotId), s.Clear .b → small w = i.val → (s.record i).state = .done →
    let withdraw := exec (.withdraw .b tag w) s
    let ok := fun u : State => Host.Outcome.next (u.replies .b .withdraw tag .ok)
    let out := { s.slot i with record := { s.record i with placement := .none } }
    let l := s.lots[n]
    let left := l.entries.filter fun e => !(e.slot == i && e.state == .unpicked)
    let with_ := fun l : Lot => ({ s.setSlot i out with lots := s.lots.set n l } : State)
    ((s.record i).placement = .none → withdraw = .next (s.replies .b .withdraw tag .wrongState)) ∧
    (∀ v, (s.record i).verdict = some v → (s.record i).placement = .pending → withdraw = ok { s.setSlot i out with
      binQueues := s.binQueues.set v.bin.index (s.binQueues[v.bin.index].filter fun j => j != i) }) ∧
    ((s.record i).placement = .lot n →
      (l.state = .open_ → withdraw = ok (with_ { l with entries := left })) ∧
      (l.state = .closed → withdraw = ok (
        if left = [] then { with_ {} with opening := s.opening.filter fun m => m != n }
        else if ∀ e ∈ left, e.state = .picked ∨ e.state = .lost then
          (with_ { l with entries := left, capacity := left.length, state := .complete }).raiseTo .b (.rack (.lotComplete n))
        else with_ { l with entries := left, capacity := left.length })) ∧
      (l.state = .full → left.length < l.capacity →
        let queue := s.binQueues[l.bin.index]
        let moved := (queue.takeWhile fun j => (s.record j).verdict.isSome).take (l.capacity - left.length)
        let entries := left ++ moved.map fun j : SlotId =>
          ({ serial := ((s.record j).identity.map Identity.serial).getD (Vector.replicate 20 32), slot := j
             kind := ((s.record j).verdict.map Verdict.kind).getD .graded
             score := (s.record j).verdict.bind fun v => if v.kind = VerdictKind.graded then v.score else none
             state := .unpicked } : LotEntry)
        let full := entries.length = l.capacity
        let u := { s with
          slots := Vector.ofFn fun j => { s.slot j with record := { s.record j with
            placement := if j ∈ moved then .lot n else if j = i then .none else (s.record j).placement } }
          lots := s.lots.set n { l with state := if full then .full else .open_, entries := entries }
          binQueues := s.binQueues.set l.bin.index (queue.drop moved.length) }
        withdraw = ok (if full then u.raiseTo .b (.rack (.lotFull n)) else u)))
end

