-- ==== Sys2Proof/Laws/State.lean ====
section
/-! SUPPORT. What each update leaves of each field of the state, so that no later proof unfolds a record update. -/

namespace Sys2Proof.Machine

variable (s : State) (i : SlotId) (p : Port)

/-! ### `setSlot` -/

@[simp] theorem State.setSlot_now (x : Slot) : (s.setSlot i x).now = s.now := rfl
@[simp] theorem State.setSlot_classTable (x : Slot) : (s.setSlot i x).classTable = s.classTable := rfl
@[simp] theorem State.setSlot_line (x : Slot) : (s.setSlot i x).line = s.line := rfl
@[simp] theorem State.setSlot_timing (x : Slot) : (s.setSlot i x).timing = s.timing := rfl
@[simp] theorem State.setSlot_load (x : Slot) : (s.setSlot i x).load = s.load := rfl
@[simp] theorem State.setSlot_admission (x : Slot) : (s.setSlot i x).admission = s.admission := rfl
@[simp] theorem State.setSlot_headSince (x : Slot) : (s.setSlot i x).headSince = s.headSince := rfl
@[simp] theorem State.setSlot_headWait (x : Slot) : (s.setSlot i x).headWait = s.headWait := rfl
@[simp] theorem State.setSlot_window (x : Slot) : (s.setSlot i x).window = s.window := rfl
@[simp] theorem State.setSlot_plans (x : Slot) : (s.setSlot i x).plans = s.plans := rfl
@[simp] theorem State.setSlot_trays (x : Slot) : (s.setSlot i x).trays = s.trays := rfl
@[simp] theorem State.setSlot_grade (x : Slot) : (s.setSlot i x).grade = s.grade := rfl
@[simp] theorem State.setSlot_gradingQueue (x : Slot) : (s.setSlot i x).gradingQueue = s.gradingQueue := rfl
@[simp] theorem State.setSlot_engine (x : Slot) : (s.setSlot i x).engine = s.engine := rfl
@[simp] theorem State.setSlot_unsetNotice (x : Slot) : (s.setSlot i x).unsetNotice = s.unsetNotice := rfl
@[simp] theorem State.setSlot_binQueues (x : Slot) : (s.setSlot i x).binQueues = s.binQueues := rfl
@[simp] theorem State.setSlot_lots (x : Slot) : (s.setSlot i x).lots = s.lots := rfl
@[simp] theorem State.setSlot_opening (x : Slot) : (s.setSlot i x).opening = s.opening := rfl
@[simp] theorem State.setSlot_attA (x : Slot) : (s.setSlot i x).attA = s.attA := rfl
@[simp] theorem State.setSlot_attB (x : Slot) : (s.setSlot i x).attB = s.attB := rfl
@[simp] theorem State.setSlot_linkA (x : Slot) : (s.setSlot i x).linkA = s.linkA := rfl
@[simp] theorem State.setSlot_linkB (x : Slot) : (s.setSlot i x).linkB = s.linkB := rfl
@[simp] theorem State.setSlot_outstanding (x : Slot) : (s.setSlot i x).outstanding = s.outstanding := rfl
@[simp] theorem State.setSlot_resetLow (x : Slot) : (s.setSlot i x).resetLow = s.resetLow := rfl
@[simp] theorem State.setSlot_origin (x : Slot) : (s.setSlot i x).origin = s.origin := rfl
@[simp] theorem State.setSlot_freeCount (x : Slot) : (s.setSlot i x).freeCount = s.freeCount := rfl
@[simp] theorem State.setSlot_pending (x : Slot) : (s.setSlot i x).pending = s.pending := rfl

/-! ### `modSlot` -/

@[simp] theorem State.modSlot_now (f : Slot → Slot) : (s.modSlot i f).now = s.now := rfl
@[simp] theorem State.modSlot_classTable (f : Slot → Slot) : (s.modSlot i f).classTable = s.classTable := rfl
@[simp] theorem State.modSlot_line (f : Slot → Slot) : (s.modSlot i f).line = s.line := rfl
@[simp] theorem State.modSlot_timing (f : Slot → Slot) : (s.modSlot i f).timing = s.timing := rfl
@[simp] theorem State.modSlot_load (f : Slot → Slot) : (s.modSlot i f).load = s.load := rfl
@[simp] theorem State.modSlot_admission (f : Slot → Slot) : (s.modSlot i f).admission = s.admission := rfl
@[simp] theorem State.modSlot_headSince (f : Slot → Slot) : (s.modSlot i f).headSince = s.headSince := rfl
@[simp] theorem State.modSlot_headWait (f : Slot → Slot) : (s.modSlot i f).headWait = s.headWait := rfl
@[simp] theorem State.modSlot_window (f : Slot → Slot) : (s.modSlot i f).window = s.window := rfl
@[simp] theorem State.modSlot_plans (f : Slot → Slot) : (s.modSlot i f).plans = s.plans := rfl
@[simp] theorem State.modSlot_trays (f : Slot → Slot) : (s.modSlot i f).trays = s.trays := rfl
@[simp] theorem State.modSlot_grade (f : Slot → Slot) : (s.modSlot i f).grade = s.grade := rfl
@[simp] theorem State.modSlot_gradingQueue (f : Slot → Slot) : (s.modSlot i f).gradingQueue = s.gradingQueue := rfl
@[simp] theorem State.modSlot_engine (f : Slot → Slot) : (s.modSlot i f).engine = s.engine := rfl
@[simp] theorem State.modSlot_unsetNotice (f : Slot → Slot) : (s.modSlot i f).unsetNotice = s.unsetNotice := rfl
@[simp] theorem State.modSlot_binQueues (f : Slot → Slot) : (s.modSlot i f).binQueues = s.binQueues := rfl
@[simp] theorem State.modSlot_lots (f : Slot → Slot) : (s.modSlot i f).lots = s.lots := rfl
@[simp] theorem State.modSlot_opening (f : Slot → Slot) : (s.modSlot i f).opening = s.opening := rfl
@[simp] theorem State.modSlot_attA (f : Slot → Slot) : (s.modSlot i f).attA = s.attA := rfl
@[simp] theorem State.modSlot_attB (f : Slot → Slot) : (s.modSlot i f).attB = s.attB := rfl
@[simp] theorem State.modSlot_linkA (f : Slot → Slot) : (s.modSlot i f).linkA = s.linkA := rfl
@[simp] theorem State.modSlot_linkB (f : Slot → Slot) : (s.modSlot i f).linkB = s.linkB := rfl
@[simp] theorem State.modSlot_outstanding (f : Slot → Slot) : (s.modSlot i f).outstanding = s.outstanding := rfl
@[simp] theorem State.modSlot_resetLow (f : Slot → Slot) : (s.modSlot i f).resetLow = s.resetLow := rfl
@[simp] theorem State.modSlot_origin (f : Slot → Slot) : (s.modSlot i f).origin = s.origin := rfl
@[simp] theorem State.modSlot_freeCount (f : Slot → Slot) : (s.modSlot i f).freeCount = s.freeCount := rfl
@[simp] theorem State.modSlot_pending (f : Slot → Slot) : (s.modSlot i f).pending = s.pending := rfl

/-! ### `modRecord` -/

@[simp] theorem State.modRecord_now (f : Record → Record) : (s.modRecord i f).now = s.now := rfl
@[simp] theorem State.modRecord_classTable (f : Record → Record) : (s.modRecord i f).classTable = s.classTable := rfl
@[simp] theorem State.modRecord_line (f : Record → Record) : (s.modRecord i f).line = s.line := rfl
@[simp] theorem State.modRecord_timing (f : Record → Record) : (s.modRecord i f).timing = s.timing := rfl
@[simp] theorem State.modRecord_load (f : Record → Record) : (s.modRecord i f).load = s.load := rfl
@[simp] theorem State.modRecord_admission (f : Record → Record) : (s.modRecord i f).admission = s.admission := rfl
@[simp] theorem State.modRecord_headSince (f : Record → Record) : (s.modRecord i f).headSince = s.headSince := rfl
@[simp] theorem State.modRecord_headWait (f : Record → Record) : (s.modRecord i f).headWait = s.headWait := rfl
@[simp] theorem State.modRecord_window (f : Record → Record) : (s.modRecord i f).window = s.window := rfl
@[simp] theorem State.modRecord_plans (f : Record → Record) : (s.modRecord i f).plans = s.plans := rfl
@[simp] theorem State.modRecord_trays (f : Record → Record) : (s.modRecord i f).trays = s.trays := rfl
@[simp] theorem State.modRecord_grade (f : Record → Record) : (s.modRecord i f).grade = s.grade := rfl
@[simp] theorem State.modRecord_gradingQueue (f : Record → Record) : (s.modRecord i f).gradingQueue = s.gradingQueue := rfl
@[simp] theorem State.modRecord_engine (f : Record → Record) : (s.modRecord i f).engine = s.engine := rfl
@[simp] theorem State.modRecord_unsetNotice (f : Record → Record) : (s.modRecord i f).unsetNotice = s.unsetNotice := rfl
@[simp] theorem State.modRecord_binQueues (f : Record → Record) : (s.modRecord i f).binQueues = s.binQueues := rfl
@[simp] theorem State.modRecord_lots (f : Record → Record) : (s.modRecord i f).lots = s.lots := rfl
@[simp] theorem State.modRecord_opening (f : Record → Record) : (s.modRecord i f).opening = s.opening := rfl
@[simp] theorem State.modRecord_attA (f : Record → Record) : (s.modRecord i f).attA = s.attA := rfl
@[simp] theorem State.modRecord_attB (f : Record → Record) : (s.modRecord i f).attB = s.attB := rfl
@[simp] theorem State.modRecord_linkA (f : Record → Record) : (s.modRecord i f).linkA = s.linkA := rfl
@[simp] theorem State.modRecord_linkB (f : Record → Record) : (s.modRecord i f).linkB = s.linkB := rfl
@[simp] theorem State.modRecord_outstanding (f : Record → Record) : (s.modRecord i f).outstanding = s.outstanding := rfl
@[simp] theorem State.modRecord_resetLow (f : Record → Record) : (s.modRecord i f).resetLow = s.resetLow := rfl
@[simp] theorem State.modRecord_origin (f : Record → Record) : (s.modRecord i f).origin = s.origin := rfl
@[simp] theorem State.modRecord_freeCount (f : Record → Record) : (s.modRecord i f).freeCount = s.freeCount := rfl
@[simp] theorem State.modRecord_pending (f : Record → Record) : (s.modRecord i f).pending = s.pending := rfl

/-! ### `modSm` -/

@[simp] theorem State.modSm_now (f : SlotTimers → SlotTimers) : (s.modSm i f).now = s.now := rfl
@[simp] theorem State.modSm_classTable (f : SlotTimers → SlotTimers) : (s.modSm i f).classTable = s.classTable := rfl
@[simp] theorem State.modSm_line (f : SlotTimers → SlotTimers) : (s.modSm i f).line = s.line := rfl
@[simp] theorem State.modSm_timing (f : SlotTimers → SlotTimers) : (s.modSm i f).timing = s.timing := rfl
@[simp] theorem State.modSm_load (f : SlotTimers → SlotTimers) : (s.modSm i f).load = s.load := rfl
@[simp] theorem State.modSm_admission (f : SlotTimers → SlotTimers) : (s.modSm i f).admission = s.admission := rfl
@[simp] theorem State.modSm_headSince (f : SlotTimers → SlotTimers) : (s.modSm i f).headSince = s.headSince := rfl
@[simp] theorem State.modSm_headWait (f : SlotTimers → SlotTimers) : (s.modSm i f).headWait = s.headWait := rfl
@[simp] theorem State.modSm_window (f : SlotTimers → SlotTimers) : (s.modSm i f).window = s.window := rfl
@[simp] theorem State.modSm_plans (f : SlotTimers → SlotTimers) : (s.modSm i f).plans = s.plans := rfl
@[simp] theorem State.modSm_trays (f : SlotTimers → SlotTimers) : (s.modSm i f).trays = s.trays := rfl
@[simp] theorem State.modSm_grade (f : SlotTimers → SlotTimers) : (s.modSm i f).grade = s.grade := rfl
@[simp] theorem State.modSm_gradingQueue (f : SlotTimers → SlotTimers) : (s.modSm i f).gradingQueue = s.gradingQueue := rfl
@[simp] theorem State.modSm_engine (f : SlotTimers → SlotTimers) : (s.modSm i f).engine = s.engine := rfl
@[simp] theorem State.modSm_unsetNotice (f : SlotTimers → SlotTimers) : (s.modSm i f).unsetNotice = s.unsetNotice := rfl
@[simp] theorem State.modSm_binQueues (f : SlotTimers → SlotTimers) : (s.modSm i f).binQueues = s.binQueues := rfl
@[simp] theorem State.modSm_lots (f : SlotTimers → SlotTimers) : (s.modSm i f).lots = s.lots := rfl
@[simp] theorem State.modSm_opening (f : SlotTimers → SlotTimers) : (s.modSm i f).opening = s.opening := rfl
@[simp] theorem State.modSm_attA (f : SlotTimers → SlotTimers) : (s.modSm i f).attA = s.attA := rfl
@[simp] theorem State.modSm_attB (f : SlotTimers → SlotTimers) : (s.modSm i f).attB = s.attB := rfl
@[simp] theorem State.modSm_linkA (f : SlotTimers → SlotTimers) : (s.modSm i f).linkA = s.linkA := rfl
@[simp] theorem State.modSm_linkB (f : SlotTimers → SlotTimers) : (s.modSm i f).linkB = s.linkB := rfl
@[simp] theorem State.modSm_outstanding (f : SlotTimers → SlotTimers) : (s.modSm i f).outstanding = s.outstanding := rfl
@[simp] theorem State.modSm_resetLow (f : SlotTimers → SlotTimers) : (s.modSm i f).resetLow = s.resetLow := rfl
@[simp] theorem State.modSm_origin (f : SlotTimers → SlotTimers) : (s.modSm i f).origin = s.origin := rfl
@[simp] theorem State.modSm_freeCount (f : SlotTimers → SlotTimers) : (s.modSm i f).freeCount = s.freeCount := rfl
@[simp] theorem State.modSm_pending (f : SlotTimers → SlotTimers) : (s.modSm i f).pending = s.pending := rfl

/-! ### `modPau` -/

@[simp] theorem State.modPau_now (f : PowerTimers → PowerTimers) : (s.modPau i f).now = s.now := rfl
@[simp] theorem State.modPau_classTable (f : PowerTimers → PowerTimers) : (s.modPau i f).classTable = s.classTable := rfl
@[simp] theorem State.modPau_line (f : PowerTimers → PowerTimers) : (s.modPau i f).line = s.line := rfl
@[simp] theorem State.modPau_timing (f : PowerTimers → PowerTimers) : (s.modPau i f).timing = s.timing := rfl
@[simp] theorem State.modPau_load (f : PowerTimers → PowerTimers) : (s.modPau i f).load = s.load := rfl
@[simp] theorem State.modPau_admission (f : PowerTimers → PowerTimers) : (s.modPau i f).admission = s.admission := rfl
@[simp] theorem State.modPau_headSince (f : PowerTimers → PowerTimers) : (s.modPau i f).headSince = s.headSince := rfl
@[simp] theorem State.modPau_headWait (f : PowerTimers → PowerTimers) : (s.modPau i f).headWait = s.headWait := rfl
@[simp] theorem State.modPau_window (f : PowerTimers → PowerTimers) : (s.modPau i f).window = s.window := rfl
@[simp] theorem State.modPau_plans (f : PowerTimers → PowerTimers) : (s.modPau i f).plans = s.plans := rfl
@[simp] theorem State.modPau_trays (f : PowerTimers → PowerTimers) : (s.modPau i f).trays = s.trays := rfl
@[simp] theorem State.modPau_grade (f : PowerTimers → PowerTimers) : (s.modPau i f).grade = s.grade := rfl
@[simp] theorem State.modPau_gradingQueue (f : PowerTimers → PowerTimers) : (s.modPau i f).gradingQueue = s.gradingQueue := rfl
@[simp] theorem State.modPau_engine (f : PowerTimers → PowerTimers) : (s.modPau i f).engine = s.engine := rfl
@[simp] theorem State.modPau_unsetNotice (f : PowerTimers → PowerTimers) : (s.modPau i f).unsetNotice = s.unsetNotice := rfl
@[simp] theorem State.modPau_binQueues (f : PowerTimers → PowerTimers) : (s.modPau i f).binQueues = s.binQueues := rfl
@[simp] theorem State.modPau_lots (f : PowerTimers → PowerTimers) : (s.modPau i f).lots = s.lots := rfl
@[simp] theorem State.modPau_opening (f : PowerTimers → PowerTimers) : (s.modPau i f).opening = s.opening := rfl
@[simp] theorem State.modPau_attA (f : PowerTimers → PowerTimers) : (s.modPau i f).attA = s.attA := rfl
@[simp] theorem State.modPau_attB (f : PowerTimers → PowerTimers) : (s.modPau i f).attB = s.attB := rfl
@[simp] theorem State.modPau_linkA (f : PowerTimers → PowerTimers) : (s.modPau i f).linkA = s.linkA := rfl
@[simp] theorem State.modPau_linkB (f : PowerTimers → PowerTimers) : (s.modPau i f).linkB = s.linkB := rfl
@[simp] theorem State.modPau_outstanding (f : PowerTimers → PowerTimers) : (s.modPau i f).outstanding = s.outstanding := rfl
@[simp] theorem State.modPau_resetLow (f : PowerTimers → PowerTimers) : (s.modPau i f).resetLow = s.resetLow := rfl
@[simp] theorem State.modPau_origin (f : PowerTimers → PowerTimers) : (s.modPau i f).origin = s.origin := rfl
@[simp] theorem State.modPau_freeCount (f : PowerTimers → PowerTimers) : (s.modPau i f).freeCount = s.freeCount := rfl
@[simp] theorem State.modPau_pending (f : PowerTimers → PowerTimers) : (s.modPau i f).pending = s.pending := rfl

/-! ### `modDpe` -/

@[simp] theorem State.modDpe_now (f : Engine → Engine) : (s.modDpe i f).now = s.now := rfl
@[simp] theorem State.modDpe_classTable (f : Engine → Engine) : (s.modDpe i f).classTable = s.classTable := rfl
@[simp] theorem State.modDpe_line (f : Engine → Engine) : (s.modDpe i f).line = s.line := rfl
@[simp] theorem State.modDpe_timing (f : Engine → Engine) : (s.modDpe i f).timing = s.timing := rfl
@[simp] theorem State.modDpe_load (f : Engine → Engine) : (s.modDpe i f).load = s.load := rfl
@[simp] theorem State.modDpe_admission (f : Engine → Engine) : (s.modDpe i f).admission = s.admission := rfl
@[simp] theorem State.modDpe_headSince (f : Engine → Engine) : (s.modDpe i f).headSince = s.headSince := rfl
@[simp] theorem State.modDpe_headWait (f : Engine → Engine) : (s.modDpe i f).headWait = s.headWait := rfl
@[simp] theorem State.modDpe_window (f : Engine → Engine) : (s.modDpe i f).window = s.window := rfl
@[simp] theorem State.modDpe_plans (f : Engine → Engine) : (s.modDpe i f).plans = s.plans := rfl
@[simp] theorem State.modDpe_trays (f : Engine → Engine) : (s.modDpe i f).trays = s.trays := rfl
@[simp] theorem State.modDpe_grade (f : Engine → Engine) : (s.modDpe i f).grade = s.grade := rfl
@[simp] theorem State.modDpe_gradingQueue (f : Engine → Engine) : (s.modDpe i f).gradingQueue = s.gradingQueue := rfl
@[simp] theorem State.modDpe_engine (f : Engine → Engine) : (s.modDpe i f).engine = s.engine := rfl
@[simp] theorem State.modDpe_unsetNotice (f : Engine → Engine) : (s.modDpe i f).unsetNotice = s.unsetNotice := rfl
@[simp] theorem State.modDpe_binQueues (f : Engine → Engine) : (s.modDpe i f).binQueues = s.binQueues := rfl
@[simp] theorem State.modDpe_lots (f : Engine → Engine) : (s.modDpe i f).lots = s.lots := rfl
@[simp] theorem State.modDpe_opening (f : Engine → Engine) : (s.modDpe i f).opening = s.opening := rfl
@[simp] theorem State.modDpe_attA (f : Engine → Engine) : (s.modDpe i f).attA = s.attA := rfl
@[simp] theorem State.modDpe_attB (f : Engine → Engine) : (s.modDpe i f).attB = s.attB := rfl
@[simp] theorem State.modDpe_linkA (f : Engine → Engine) : (s.modDpe i f).linkA = s.linkA := rfl
@[simp] theorem State.modDpe_linkB (f : Engine → Engine) : (s.modDpe i f).linkB = s.linkB := rfl
@[simp] theorem State.modDpe_outstanding (f : Engine → Engine) : (s.modDpe i f).outstanding = s.outstanding := rfl
@[simp] theorem State.modDpe_resetLow (f : Engine → Engine) : (s.modDpe i f).resetLow = s.resetLow := rfl
@[simp] theorem State.modDpe_origin (f : Engine → Engine) : (s.modDpe i f).origin = s.origin := rfl
@[simp] theorem State.modDpe_freeCount (f : Engine → Engine) : (s.modDpe i f).freeCount = s.freeCount := rfl
@[simp] theorem State.modDpe_pending (f : Engine → Engine) : (s.modDpe i f).pending = s.pending := rfl

/-! ### `modTest` -/

@[simp] theorem State.modTest_now (f : TestRecord → TestRecord) : (s.modTest i f).now = s.now := rfl
@[simp] theorem State.modTest_classTable (f : TestRecord → TestRecord) : (s.modTest i f).classTable = s.classTable := rfl
@[simp] theorem State.modTest_line (f : TestRecord → TestRecord) : (s.modTest i f).line = s.line := rfl
@[simp] theorem State.modTest_timing (f : TestRecord → TestRecord) : (s.modTest i f).timing = s.timing := rfl
@[simp] theorem State.modTest_load (f : TestRecord → TestRecord) : (s.modTest i f).load = s.load := rfl
@[simp] theorem State.modTest_admission (f : TestRecord → TestRecord) : (s.modTest i f).admission = s.admission := rfl
@[simp] theorem State.modTest_headSince (f : TestRecord → TestRecord) : (s.modTest i f).headSince = s.headSince := rfl
@[simp] theorem State.modTest_headWait (f : TestRecord → TestRecord) : (s.modTest i f).headWait = s.headWait := rfl
@[simp] theorem State.modTest_window (f : TestRecord → TestRecord) : (s.modTest i f).window = s.window := rfl
@[simp] theorem State.modTest_plans (f : TestRecord → TestRecord) : (s.modTest i f).plans = s.plans := rfl
@[simp] theorem State.modTest_trays (f : TestRecord → TestRecord) : (s.modTest i f).trays = s.trays := rfl
@[simp] theorem State.modTest_grade (f : TestRecord → TestRecord) : (s.modTest i f).grade = s.grade := rfl
@[simp] theorem State.modTest_gradingQueue (f : TestRecord → TestRecord) : (s.modTest i f).gradingQueue = s.gradingQueue := rfl
@[simp] theorem State.modTest_engine (f : TestRecord → TestRecord) : (s.modTest i f).engine = s.engine := rfl
@[simp] theorem State.modTest_unsetNotice (f : TestRecord → TestRecord) : (s.modTest i f).unsetNotice = s.unsetNotice := rfl
@[simp] theorem State.modTest_binQueues (f : TestRecord → TestRecord) : (s.modTest i f).binQueues = s.binQueues := rfl
@[simp] theorem State.modTest_lots (f : TestRecord → TestRecord) : (s.modTest i f).lots = s.lots := rfl
@[simp] theorem State.modTest_opening (f : TestRecord → TestRecord) : (s.modTest i f).opening = s.opening := rfl
@[simp] theorem State.modTest_attA (f : TestRecord → TestRecord) : (s.modTest i f).attA = s.attA := rfl
@[simp] theorem State.modTest_attB (f : TestRecord → TestRecord) : (s.modTest i f).attB = s.attB := rfl
@[simp] theorem State.modTest_linkA (f : TestRecord → TestRecord) : (s.modTest i f).linkA = s.linkA := rfl
@[simp] theorem State.modTest_linkB (f : TestRecord → TestRecord) : (s.modTest i f).linkB = s.linkB := rfl
@[simp] theorem State.modTest_outstanding (f : TestRecord → TestRecord) : (s.modTest i f).outstanding = s.outstanding := rfl
@[simp] theorem State.modTest_resetLow (f : TestRecord → TestRecord) : (s.modTest i f).resetLow = s.resetLow := rfl
@[simp] theorem State.modTest_origin (f : TestRecord → TestRecord) : (s.modTest i f).origin = s.origin := rfl
@[simp] theorem State.modTest_freeCount (f : TestRecord → TestRecord) : (s.modTest i f).freeCount = s.freeCount := rfl
@[simp] theorem State.modTest_pending (f : TestRecord → TestRecord) : (s.modTest i f).pending = s.pending := rfl

/-! ### `modRun` -/

@[simp] theorem State.modRun_now (f : RunContext → RunContext) : (s.modRun i f).now = s.now := rfl
@[simp] theorem State.modRun_classTable (f : RunContext → RunContext) : (s.modRun i f).classTable = s.classTable := rfl
@[simp] theorem State.modRun_line (f : RunContext → RunContext) : (s.modRun i f).line = s.line := rfl
@[simp] theorem State.modRun_timing (f : RunContext → RunContext) : (s.modRun i f).timing = s.timing := rfl
@[simp] theorem State.modRun_load (f : RunContext → RunContext) : (s.modRun i f).load = s.load := rfl
@[simp] theorem State.modRun_admission (f : RunContext → RunContext) : (s.modRun i f).admission = s.admission := rfl
@[simp] theorem State.modRun_headSince (f : RunContext → RunContext) : (s.modRun i f).headSince = s.headSince := rfl
@[simp] theorem State.modRun_headWait (f : RunContext → RunContext) : (s.modRun i f).headWait = s.headWait := rfl
@[simp] theorem State.modRun_window (f : RunContext → RunContext) : (s.modRun i f).window = s.window := rfl
@[simp] theorem State.modRun_plans (f : RunContext → RunContext) : (s.modRun i f).plans = s.plans := rfl
@[simp] theorem State.modRun_trays (f : RunContext → RunContext) : (s.modRun i f).trays = s.trays := rfl
@[simp] theorem State.modRun_grade (f : RunContext → RunContext) : (s.modRun i f).grade = s.grade := rfl
@[simp] theorem State.modRun_gradingQueue (f : RunContext → RunContext) : (s.modRun i f).gradingQueue = s.gradingQueue := rfl
@[simp] theorem State.modRun_engine (f : RunContext → RunContext) : (s.modRun i f).engine = s.engine := rfl
@[simp] theorem State.modRun_unsetNotice (f : RunContext → RunContext) : (s.modRun i f).unsetNotice = s.unsetNotice := rfl
@[simp] theorem State.modRun_binQueues (f : RunContext → RunContext) : (s.modRun i f).binQueues = s.binQueues := rfl
@[simp] theorem State.modRun_lots (f : RunContext → RunContext) : (s.modRun i f).lots = s.lots := rfl
@[simp] theorem State.modRun_opening (f : RunContext → RunContext) : (s.modRun i f).opening = s.opening := rfl
@[simp] theorem State.modRun_attA (f : RunContext → RunContext) : (s.modRun i f).attA = s.attA := rfl
@[simp] theorem State.modRun_attB (f : RunContext → RunContext) : (s.modRun i f).attB = s.attB := rfl
@[simp] theorem State.modRun_linkA (f : RunContext → RunContext) : (s.modRun i f).linkA = s.linkA := rfl
@[simp] theorem State.modRun_linkB (f : RunContext → RunContext) : (s.modRun i f).linkB = s.linkB := rfl
@[simp] theorem State.modRun_outstanding (f : RunContext → RunContext) : (s.modRun i f).outstanding = s.outstanding := rfl
@[simp] theorem State.modRun_resetLow (f : RunContext → RunContext) : (s.modRun i f).resetLow = s.resetLow := rfl
@[simp] theorem State.modRun_origin (f : RunContext → RunContext) : (s.modRun i f).origin = s.origin := rfl
@[simp] theorem State.modRun_freeCount (f : RunContext → RunContext) : (s.modRun i f).freeCount = s.freeCount := rfl
@[simp] theorem State.modRun_pending (f : RunContext → RunContext) : (s.modRun i f).pending = s.pending := rfl

/-! ### `modTray` -/

@[simp] theorem State.modTray_now (t : TrayId) (f : Tray → Tray) : (s.modTray t f).now = s.now := rfl
@[simp] theorem State.modTray_slots (t : TrayId) (f : Tray → Tray) : (s.modTray t f).slots = s.slots := rfl
@[simp] theorem State.modTray_classTable (t : TrayId) (f : Tray → Tray) : (s.modTray t f).classTable = s.classTable := rfl
@[simp] theorem State.modTray_line (t : TrayId) (f : Tray → Tray) : (s.modTray t f).line = s.line := rfl
@[simp] theorem State.modTray_timing (t : TrayId) (f : Tray → Tray) : (s.modTray t f).timing = s.timing := rfl
@[simp] theorem State.modTray_load (t : TrayId) (f : Tray → Tray) : (s.modTray t f).load = s.load := rfl
@[simp] theorem State.modTray_admission (t : TrayId) (f : Tray → Tray) : (s.modTray t f).admission = s.admission := rfl
@[simp] theorem State.modTray_headSince (t : TrayId) (f : Tray → Tray) : (s.modTray t f).headSince = s.headSince := rfl
@[simp] theorem State.modTray_headWait (t : TrayId) (f : Tray → Tray) : (s.modTray t f).headWait = s.headWait := rfl
@[simp] theorem State.modTray_window (t : TrayId) (f : Tray → Tray) : (s.modTray t f).window = s.window := rfl
@[simp] theorem State.modTray_plans (t : TrayId) (f : Tray → Tray) : (s.modTray t f).plans = s.plans := rfl
@[simp] theorem State.modTray_grade (t : TrayId) (f : Tray → Tray) : (s.modTray t f).grade = s.grade := rfl
@[simp] theorem State.modTray_gradingQueue (t : TrayId) (f : Tray → Tray) : (s.modTray t f).gradingQueue = s.gradingQueue := rfl
@[simp] theorem State.modTray_engine (t : TrayId) (f : Tray → Tray) : (s.modTray t f).engine = s.engine := rfl
@[simp] theorem State.modTray_unsetNotice (t : TrayId) (f : Tray → Tray) : (s.modTray t f).unsetNotice = s.unsetNotice := rfl
@[simp] theorem State.modTray_binQueues (t : TrayId) (f : Tray → Tray) : (s.modTray t f).binQueues = s.binQueues := rfl
@[simp] theorem State.modTray_lots (t : TrayId) (f : Tray → Tray) : (s.modTray t f).lots = s.lots := rfl
@[simp] theorem State.modTray_opening (t : TrayId) (f : Tray → Tray) : (s.modTray t f).opening = s.opening := rfl
@[simp] theorem State.modTray_attA (t : TrayId) (f : Tray → Tray) : (s.modTray t f).attA = s.attA := rfl
@[simp] theorem State.modTray_attB (t : TrayId) (f : Tray → Tray) : (s.modTray t f).attB = s.attB := rfl
@[simp] theorem State.modTray_linkA (t : TrayId) (f : Tray → Tray) : (s.modTray t f).linkA = s.linkA := rfl
@[simp] theorem State.modTray_linkB (t : TrayId) (f : Tray → Tray) : (s.modTray t f).linkB = s.linkB := rfl
@[simp] theorem State.modTray_outstanding (t : TrayId) (f : Tray → Tray) : (s.modTray t f).outstanding = s.outstanding := rfl
@[simp] theorem State.modTray_resetLow (t : TrayId) (f : Tray → Tray) : (s.modTray t f).resetLow = s.resetLow := rfl
@[simp] theorem State.modTray_origin (t : TrayId) (f : Tray → Tray) : (s.modTray t f).origin = s.origin := rfl
@[simp] theorem State.modTray_freeCount (t : TrayId) (f : Tray → Tray) : (s.modTray t f).freeCount = s.freeCount := rfl
@[simp] theorem State.modTray_pending (t : TrayId) (f : Tray → Tray) : (s.modTray t f).pending = s.pending := rfl

/-! ### `modPlan` -/

@[simp] theorem State.modPlan_now (n : PlanId) (f : Plan → Plan) : (s.modPlan n f).now = s.now := rfl
@[simp] theorem State.modPlan_slots (n : PlanId) (f : Plan → Plan) : (s.modPlan n f).slots = s.slots := rfl
@[simp] theorem State.modPlan_classTable (n : PlanId) (f : Plan → Plan) : (s.modPlan n f).classTable = s.classTable := rfl
@[simp] theorem State.modPlan_line (n : PlanId) (f : Plan → Plan) : (s.modPlan n f).line = s.line := rfl
@[simp] theorem State.modPlan_timing (n : PlanId) (f : Plan → Plan) : (s.modPlan n f).timing = s.timing := rfl
@[simp] theorem State.modPlan_load (n : PlanId) (f : Plan → Plan) : (s.modPlan n f).load = s.load := rfl
@[simp] theorem State.modPlan_admission (n : PlanId) (f : Plan → Plan) : (s.modPlan n f).admission = s.admission := rfl
@[simp] theorem State.modPlan_headSince (n : PlanId) (f : Plan → Plan) : (s.modPlan n f).headSince = s.headSince := rfl
@[simp] theorem State.modPlan_headWait (n : PlanId) (f : Plan → Plan) : (s.modPlan n f).headWait = s.headWait := rfl
@[simp] theorem State.modPlan_window (n : PlanId) (f : Plan → Plan) : (s.modPlan n f).window = s.window := rfl
@[simp] theorem State.modPlan_trays (n : PlanId) (f : Plan → Plan) : (s.modPlan n f).trays = s.trays := rfl
@[simp] theorem State.modPlan_grade (n : PlanId) (f : Plan → Plan) : (s.modPlan n f).grade = s.grade := rfl
@[simp] theorem State.modPlan_gradingQueue (n : PlanId) (f : Plan → Plan) : (s.modPlan n f).gradingQueue = s.gradingQueue := rfl
@[simp] theorem State.modPlan_engine (n : PlanId) (f : Plan → Plan) : (s.modPlan n f).engine = s.engine := rfl
@[simp] theorem State.modPlan_unsetNotice (n : PlanId) (f : Plan → Plan) : (s.modPlan n f).unsetNotice = s.unsetNotice := rfl
@[simp] theorem State.modPlan_binQueues (n : PlanId) (f : Plan → Plan) : (s.modPlan n f).binQueues = s.binQueues := rfl
@[simp] theorem State.modPlan_lots (n : PlanId) (f : Plan → Plan) : (s.modPlan n f).lots = s.lots := rfl
@[simp] theorem State.modPlan_opening (n : PlanId) (f : Plan → Plan) : (s.modPlan n f).opening = s.opening := rfl
@[simp] theorem State.modPlan_attA (n : PlanId) (f : Plan → Plan) : (s.modPlan n f).attA = s.attA := rfl
@[simp] theorem State.modPlan_attB (n : PlanId) (f : Plan → Plan) : (s.modPlan n f).attB = s.attB := rfl
@[simp] theorem State.modPlan_linkA (n : PlanId) (f : Plan → Plan) : (s.modPlan n f).linkA = s.linkA := rfl
@[simp] theorem State.modPlan_linkB (n : PlanId) (f : Plan → Plan) : (s.modPlan n f).linkB = s.linkB := rfl
@[simp] theorem State.modPlan_outstanding (n : PlanId) (f : Plan → Plan) : (s.modPlan n f).outstanding = s.outstanding := rfl
@[simp] theorem State.modPlan_resetLow (n : PlanId) (f : Plan → Plan) : (s.modPlan n f).resetLow = s.resetLow := rfl
@[simp] theorem State.modPlan_origin (n : PlanId) (f : Plan → Plan) : (s.modPlan n f).origin = s.origin := rfl
@[simp] theorem State.modPlan_freeCount (n : PlanId) (f : Plan → Plan) : (s.modPlan n f).freeCount = s.freeCount := rfl
@[simp] theorem State.modPlan_pending (n : PlanId) (f : Plan → Plan) : (s.modPlan n f).pending = s.pending := rfl

/-! ### `modLot` -/

@[simp] theorem State.modLot_now (n : LotId) (f : Lot → Lot) : (s.modLot n f).now = s.now := rfl
@[simp] theorem State.modLot_slots (n : LotId) (f : Lot → Lot) : (s.modLot n f).slots = s.slots := rfl
@[simp] theorem State.modLot_classTable (n : LotId) (f : Lot → Lot) : (s.modLot n f).classTable = s.classTable := rfl
@[simp] theorem State.modLot_line (n : LotId) (f : Lot → Lot) : (s.modLot n f).line = s.line := rfl
@[simp] theorem State.modLot_timing (n : LotId) (f : Lot → Lot) : (s.modLot n f).timing = s.timing := rfl
@[simp] theorem State.modLot_load (n : LotId) (f : Lot → Lot) : (s.modLot n f).load = s.load := rfl
@[simp] theorem State.modLot_admission (n : LotId) (f : Lot → Lot) : (s.modLot n f).admission = s.admission := rfl
@[simp] theorem State.modLot_headSince (n : LotId) (f : Lot → Lot) : (s.modLot n f).headSince = s.headSince := rfl
@[simp] theorem State.modLot_headWait (n : LotId) (f : Lot → Lot) : (s.modLot n f).headWait = s.headWait := rfl
@[simp] theorem State.modLot_window (n : LotId) (f : Lot → Lot) : (s.modLot n f).window = s.window := rfl
@[simp] theorem State.modLot_plans (n : LotId) (f : Lot → Lot) : (s.modLot n f).plans = s.plans := rfl
@[simp] theorem State.modLot_trays (n : LotId) (f : Lot → Lot) : (s.modLot n f).trays = s.trays := rfl
@[simp] theorem State.modLot_grade (n : LotId) (f : Lot → Lot) : (s.modLot n f).grade = s.grade := rfl
@[simp] theorem State.modLot_gradingQueue (n : LotId) (f : Lot → Lot) : (s.modLot n f).gradingQueue = s.gradingQueue := rfl
@[simp] theorem State.modLot_engine (n : LotId) (f : Lot → Lot) : (s.modLot n f).engine = s.engine := rfl
@[simp] theorem State.modLot_unsetNotice (n : LotId) (f : Lot → Lot) : (s.modLot n f).unsetNotice = s.unsetNotice := rfl
@[simp] theorem State.modLot_binQueues (n : LotId) (f : Lot → Lot) : (s.modLot n f).binQueues = s.binQueues := rfl
@[simp] theorem State.modLot_opening (n : LotId) (f : Lot → Lot) : (s.modLot n f).opening = s.opening := rfl
@[simp] theorem State.modLot_attA (n : LotId) (f : Lot → Lot) : (s.modLot n f).attA = s.attA := rfl
@[simp] theorem State.modLot_attB (n : LotId) (f : Lot → Lot) : (s.modLot n f).attB = s.attB := rfl
@[simp] theorem State.modLot_linkA (n : LotId) (f : Lot → Lot) : (s.modLot n f).linkA = s.linkA := rfl
@[simp] theorem State.modLot_linkB (n : LotId) (f : Lot → Lot) : (s.modLot n f).linkB = s.linkB := rfl
@[simp] theorem State.modLot_outstanding (n : LotId) (f : Lot → Lot) : (s.modLot n f).outstanding = s.outstanding := rfl
@[simp] theorem State.modLot_resetLow (n : LotId) (f : Lot → Lot) : (s.modLot n f).resetLow = s.resetLow := rfl
@[simp] theorem State.modLot_origin (n : LotId) (f : Lot → Lot) : (s.modLot n f).origin = s.origin := rfl
@[simp] theorem State.modLot_freeCount (n : LotId) (f : Lot → Lot) : (s.modLot n f).freeCount = s.freeCount := rfl
@[simp] theorem State.modLot_pending (n : LotId) (f : Lot → Lot) : (s.modLot n f).pending = s.pending := rfl

/-! ### `modBin` -/

@[simp] theorem State.modBin_now (b : Bin) (f : List SlotId → List SlotId) : (s.modBin b f).now = s.now := rfl
@[simp] theorem State.modBin_slots (b : Bin) (f : List SlotId → List SlotId) : (s.modBin b f).slots = s.slots := rfl
@[simp] theorem State.modBin_classTable (b : Bin) (f : List SlotId → List SlotId) : (s.modBin b f).classTable = s.classTable := rfl
@[simp] theorem State.modBin_line (b : Bin) (f : List SlotId → List SlotId) : (s.modBin b f).line = s.line := rfl
@[simp] theorem State.modBin_timing (b : Bin) (f : List SlotId → List SlotId) : (s.modBin b f).timing = s.timing := rfl
@[simp] theorem State.modBin_load (b : Bin) (f : List SlotId → List SlotId) : (s.modBin b f).load = s.load := rfl
@[simp] theorem State.modBin_admission (b : Bin) (f : List SlotId → List SlotId) : (s.modBin b f).admission = s.admission := rfl
@[simp] theorem State.modBin_headSince (b : Bin) (f : List SlotId → List SlotId) : (s.modBin b f).headSince = s.headSince := rfl
@[simp] theorem State.modBin_headWait (b : Bin) (f : List SlotId → List SlotId) : (s.modBin b f).headWait = s.headWait := rfl
@[simp] theorem State.modBin_window (b : Bin) (f : List SlotId → List SlotId) : (s.modBin b f).window = s.window := rfl
@[simp] theorem State.modBin_plans (b : Bin) (f : List SlotId → List SlotId) : (s.modBin b f).plans = s.plans := rfl
@[simp] theorem State.modBin_trays (b : Bin) (f : List SlotId → List SlotId) : (s.modBin b f).trays = s.trays := rfl
@[simp] theorem State.modBin_grade (b : Bin) (f : List SlotId → List SlotId) : (s.modBin b f).grade = s.grade := rfl
@[simp] theorem State.modBin_gradingQueue (b : Bin) (f : List SlotId → List SlotId) : (s.modBin b f).gradingQueue = s.gradingQueue := rfl
@[simp] theorem State.modBin_engine (b : Bin) (f : List SlotId → List SlotId) : (s.modBin b f).engine = s.engine := rfl
@[simp] theorem State.modBin_unsetNotice (b : Bin) (f : List SlotId → List SlotId) : (s.modBin b f).unsetNotice = s.unsetNotice := rfl
@[simp] theorem State.modBin_lots (b : Bin) (f : List SlotId → List SlotId) : (s.modBin b f).lots = s.lots := rfl
@[simp] theorem State.modBin_opening (b : Bin) (f : List SlotId → List SlotId) : (s.modBin b f).opening = s.opening := rfl
@[simp] theorem State.modBin_attA (b : Bin) (f : List SlotId → List SlotId) : (s.modBin b f).attA = s.attA := rfl
@[simp] theorem State.modBin_attB (b : Bin) (f : List SlotId → List SlotId) : (s.modBin b f).attB = s.attB := rfl
@[simp] theorem State.modBin_linkA (b : Bin) (f : List SlotId → List SlotId) : (s.modBin b f).linkA = s.linkA := rfl
@[simp] theorem State.modBin_linkB (b : Bin) (f : List SlotId → List SlotId) : (s.modBin b f).linkB = s.linkB := rfl
@[simp] theorem State.modBin_outstanding (b : Bin) (f : List SlotId → List SlotId) : (s.modBin b f).outstanding = s.outstanding := rfl
@[simp] theorem State.modBin_resetLow (b : Bin) (f : List SlotId → List SlotId) : (s.modBin b f).resetLow = s.resetLow := rfl
@[simp] theorem State.modBin_origin (b : Bin) (f : List SlotId → List SlotId) : (s.modBin b f).origin = s.origin := rfl
@[simp] theorem State.modBin_freeCount (b : Bin) (f : List SlotId → List SlotId) : (s.modBin b f).freeCount = s.freeCount := rfl
@[simp] theorem State.modBin_pending (b : Bin) (f : List SlotId → List SlotId) : (s.modBin b f).pending = s.pending := rfl

/-! ### `modLink` -/

@[simp] theorem State.modLink_now (f : LinkPort → LinkPort) : (s.modLink p f).now = s.now := by cases p <;> rfl
@[simp] theorem State.modLink_slots (f : LinkPort → LinkPort) : (s.modLink p f).slots = s.slots := by cases p <;> rfl
@[simp] theorem State.modLink_classTable (f : LinkPort → LinkPort) : (s.modLink p f).classTable = s.classTable := by cases p <;> rfl
@[simp] theorem State.modLink_line (f : LinkPort → LinkPort) : (s.modLink p f).line = s.line := by cases p <;> rfl
@[simp] theorem State.modLink_timing (f : LinkPort → LinkPort) : (s.modLink p f).timing = s.timing := by cases p <;> rfl
@[simp] theorem State.modLink_load (f : LinkPort → LinkPort) : (s.modLink p f).load = s.load := by cases p <;> rfl
@[simp] theorem State.modLink_admission (f : LinkPort → LinkPort) : (s.modLink p f).admission = s.admission := by cases p <;> rfl
@[simp] theorem State.modLink_headSince (f : LinkPort → LinkPort) : (s.modLink p f).headSince = s.headSince := by cases p <;> rfl
@[simp] theorem State.modLink_headWait (f : LinkPort → LinkPort) : (s.modLink p f).headWait = s.headWait := by cases p <;> rfl
@[simp] theorem State.modLink_window (f : LinkPort → LinkPort) : (s.modLink p f).window = s.window := by cases p <;> rfl
@[simp] theorem State.modLink_plans (f : LinkPort → LinkPort) : (s.modLink p f).plans = s.plans := by cases p <;> rfl
@[simp] theorem State.modLink_trays (f : LinkPort → LinkPort) : (s.modLink p f).trays = s.trays := by cases p <;> rfl
@[simp] theorem State.modLink_grade (f : LinkPort → LinkPort) : (s.modLink p f).grade = s.grade := by cases p <;> rfl
@[simp] theorem State.modLink_gradingQueue (f : LinkPort → LinkPort) : (s.modLink p f).gradingQueue = s.gradingQueue := by cases p <;> rfl
@[simp] theorem State.modLink_engine (f : LinkPort → LinkPort) : (s.modLink p f).engine = s.engine := by cases p <;> rfl
@[simp] theorem State.modLink_unsetNotice (f : LinkPort → LinkPort) : (s.modLink p f).unsetNotice = s.unsetNotice := by cases p <;> rfl
@[simp] theorem State.modLink_binQueues (f : LinkPort → LinkPort) : (s.modLink p f).binQueues = s.binQueues := by cases p <;> rfl
@[simp] theorem State.modLink_lots (f : LinkPort → LinkPort) : (s.modLink p f).lots = s.lots := by cases p <;> rfl
@[simp] theorem State.modLink_opening (f : LinkPort → LinkPort) : (s.modLink p f).opening = s.opening := by cases p <;> rfl
@[simp] theorem State.modLink_attA (f : LinkPort → LinkPort) : (s.modLink p f).attA = s.attA := by cases p <;> rfl
@[simp] theorem State.modLink_attB (f : LinkPort → LinkPort) : (s.modLink p f).attB = s.attB := by cases p <;> rfl
@[simp] theorem State.modLink_outstanding (f : LinkPort → LinkPort) : (s.modLink p f).outstanding = s.outstanding := by cases p <;> rfl
@[simp] theorem State.modLink_resetLow (f : LinkPort → LinkPort) : (s.modLink p f).resetLow = s.resetLow := by cases p <;> rfl
@[simp] theorem State.modLink_origin (f : LinkPort → LinkPort) : (s.modLink p f).origin = s.origin := by cases p <;> rfl
@[simp] theorem State.modLink_freeCount (f : LinkPort → LinkPort) : (s.modLink p f).freeCount = s.freeCount := by cases p <;> rfl
@[simp] theorem State.modLink_pending (f : LinkPort → LinkPort) : (s.modLink p f).pending = s.pending := by cases p <;> rfl

/-! ### `modAtt` -/

@[simp] theorem State.modAtt_now (f : Attention → Attention) : (s.modAtt p f).now = s.now := by cases p <;> rfl
@[simp] theorem State.modAtt_slots (f : Attention → Attention) : (s.modAtt p f).slots = s.slots := by cases p <;> rfl
@[simp] theorem State.modAtt_classTable (f : Attention → Attention) : (s.modAtt p f).classTable = s.classTable := by cases p <;> rfl
@[simp] theorem State.modAtt_line (f : Attention → Attention) : (s.modAtt p f).line = s.line := by cases p <;> rfl
@[simp] theorem State.modAtt_timing (f : Attention → Attention) : (s.modAtt p f).timing = s.timing := by cases p <;> rfl
@[simp] theorem State.modAtt_load (f : Attention → Attention) : (s.modAtt p f).load = s.load := by cases p <;> rfl
@[simp] theorem State.modAtt_admission (f : Attention → Attention) : (s.modAtt p f).admission = s.admission := by cases p <;> rfl
@[simp] theorem State.modAtt_headSince (f : Attention → Attention) : (s.modAtt p f).headSince = s.headSince := by cases p <;> rfl
@[simp] theorem State.modAtt_headWait (f : Attention → Attention) : (s.modAtt p f).headWait = s.headWait := by cases p <;> rfl
@[simp] theorem State.modAtt_window (f : Attention → Attention) : (s.modAtt p f).window = s.window := by cases p <;> rfl
@[simp] theorem State.modAtt_plans (f : Attention → Attention) : (s.modAtt p f).plans = s.plans := by cases p <;> rfl
@[simp] theorem State.modAtt_trays (f : Attention → Attention) : (s.modAtt p f).trays = s.trays := by cases p <;> rfl
@[simp] theorem State.modAtt_grade (f : Attention → Attention) : (s.modAtt p f).grade = s.grade := by cases p <;> rfl
@[simp] theorem State.modAtt_gradingQueue (f : Attention → Attention) : (s.modAtt p f).gradingQueue = s.gradingQueue := by cases p <;> rfl
@[simp] theorem State.modAtt_engine (f : Attention → Attention) : (s.modAtt p f).engine = s.engine := by cases p <;> rfl
@[simp] theorem State.modAtt_unsetNotice (f : Attention → Attention) : (s.modAtt p f).unsetNotice = s.unsetNotice := by cases p <;> rfl
@[simp] theorem State.modAtt_binQueues (f : Attention → Attention) : (s.modAtt p f).binQueues = s.binQueues := by cases p <;> rfl
@[simp] theorem State.modAtt_lots (f : Attention → Attention) : (s.modAtt p f).lots = s.lots := by cases p <;> rfl
@[simp] theorem State.modAtt_opening (f : Attention → Attention) : (s.modAtt p f).opening = s.opening := by cases p <;> rfl
@[simp] theorem State.modAtt_linkA (f : Attention → Attention) : (s.modAtt p f).linkA = s.linkA := by cases p <;> rfl
@[simp] theorem State.modAtt_linkB (f : Attention → Attention) : (s.modAtt p f).linkB = s.linkB := by cases p <;> rfl
@[simp] theorem State.modAtt_outstanding (f : Attention → Attention) : (s.modAtt p f).outstanding = s.outstanding := by cases p <;> rfl
@[simp] theorem State.modAtt_resetLow (f : Attention → Attention) : (s.modAtt p f).resetLow = s.resetLow := by cases p <;> rfl
@[simp] theorem State.modAtt_origin (f : Attention → Attention) : (s.modAtt p f).origin = s.origin := by cases p <;> rfl
@[simp] theorem State.modAtt_freeCount (f : Attention → Attention) : (s.modAtt p f).freeCount = s.freeCount := by cases p <;> rfl
@[simp] theorem State.modAtt_pending (f : Attention → Attention) : (s.modAtt p f).pending = s.pending := by cases p <;> rfl

/-! ### `enter` -/

@[simp] theorem State.enter_now (st : SlotState) : (s.enter i st).now = s.now := rfl
@[simp] theorem State.enter_classTable (st : SlotState) : (s.enter i st).classTable = s.classTable := rfl
@[simp] theorem State.enter_line (st : SlotState) : (s.enter i st).line = s.line := rfl
@[simp] theorem State.enter_timing (st : SlotState) : (s.enter i st).timing = s.timing := rfl
@[simp] theorem State.enter_load (st : SlotState) : (s.enter i st).load = s.load := rfl
@[simp] theorem State.enter_admission (st : SlotState) : (s.enter i st).admission = s.admission := rfl
@[simp] theorem State.enter_headSince (st : SlotState) : (s.enter i st).headSince = s.headSince := rfl
@[simp] theorem State.enter_headWait (st : SlotState) : (s.enter i st).headWait = s.headWait := rfl
@[simp] theorem State.enter_window (st : SlotState) : (s.enter i st).window = s.window := rfl
@[simp] theorem State.enter_plans (st : SlotState) : (s.enter i st).plans = s.plans := rfl
@[simp] theorem State.enter_trays (st : SlotState) : (s.enter i st).trays = s.trays := rfl
@[simp] theorem State.enter_grade (st : SlotState) : (s.enter i st).grade = s.grade := rfl
@[simp] theorem State.enter_gradingQueue (st : SlotState) : (s.enter i st).gradingQueue = s.gradingQueue := rfl
@[simp] theorem State.enter_engine (st : SlotState) : (s.enter i st).engine = s.engine := rfl
@[simp] theorem State.enter_unsetNotice (st : SlotState) : (s.enter i st).unsetNotice = s.unsetNotice := rfl
@[simp] theorem State.enter_binQueues (st : SlotState) : (s.enter i st).binQueues = s.binQueues := rfl
@[simp] theorem State.enter_lots (st : SlotState) : (s.enter i st).lots = s.lots := rfl
@[simp] theorem State.enter_opening (st : SlotState) : (s.enter i st).opening = s.opening := rfl
@[simp] theorem State.enter_attA (st : SlotState) : (s.enter i st).attA = s.attA := rfl
@[simp] theorem State.enter_attB (st : SlotState) : (s.enter i st).attB = s.attB := rfl
@[simp] theorem State.enter_linkA (st : SlotState) : (s.enter i st).linkA = s.linkA := rfl
@[simp] theorem State.enter_linkB (st : SlotState) : (s.enter i st).linkB = s.linkB := rfl
@[simp] theorem State.enter_outstanding (st : SlotState) : (s.enter i st).outstanding = s.outstanding := rfl
@[simp] theorem State.enter_resetLow (st : SlotState) : (s.enter i st).resetLow = s.resetLow := rfl
@[simp] theorem State.enter_origin (st : SlotState) : (s.enter i st).origin = s.origin := rfl
@[simp] theorem State.enter_freeCount (st : SlotState) : (s.enter i st).freeCount = s.freeCount := rfl
@[simp] theorem State.enter_pending (st : SlotState) : (s.enter i st).pending = s.pending := rfl

/-! ### `setPhase` -/

@[simp] theorem State.setPhase_now (ph : StepPhase) : (s.setPhase i ph).now = s.now := rfl
@[simp] theorem State.setPhase_classTable (ph : StepPhase) : (s.setPhase i ph).classTable = s.classTable := rfl
@[simp] theorem State.setPhase_line (ph : StepPhase) : (s.setPhase i ph).line = s.line := rfl
@[simp] theorem State.setPhase_timing (ph : StepPhase) : (s.setPhase i ph).timing = s.timing := rfl
@[simp] theorem State.setPhase_load (ph : StepPhase) : (s.setPhase i ph).load = s.load := rfl
@[simp] theorem State.setPhase_admission (ph : StepPhase) : (s.setPhase i ph).admission = s.admission := rfl
@[simp] theorem State.setPhase_headSince (ph : StepPhase) : (s.setPhase i ph).headSince = s.headSince := rfl
@[simp] theorem State.setPhase_headWait (ph : StepPhase) : (s.setPhase i ph).headWait = s.headWait := rfl
@[simp] theorem State.setPhase_window (ph : StepPhase) : (s.setPhase i ph).window = s.window := rfl
@[simp] theorem State.setPhase_plans (ph : StepPhase) : (s.setPhase i ph).plans = s.plans := rfl
@[simp] theorem State.setPhase_trays (ph : StepPhase) : (s.setPhase i ph).trays = s.trays := rfl
@[simp] theorem State.setPhase_grade (ph : StepPhase) : (s.setPhase i ph).grade = s.grade := rfl
@[simp] theorem State.setPhase_gradingQueue (ph : StepPhase) : (s.setPhase i ph).gradingQueue = s.gradingQueue := rfl
@[simp] theorem State.setPhase_engine (ph : StepPhase) : (s.setPhase i ph).engine = s.engine := rfl
@[simp] theorem State.setPhase_unsetNotice (ph : StepPhase) : (s.setPhase i ph).unsetNotice = s.unsetNotice := rfl
@[simp] theorem State.setPhase_binQueues (ph : StepPhase) : (s.setPhase i ph).binQueues = s.binQueues := rfl
@[simp] theorem State.setPhase_lots (ph : StepPhase) : (s.setPhase i ph).lots = s.lots := rfl
@[simp] theorem State.setPhase_opening (ph : StepPhase) : (s.setPhase i ph).opening = s.opening := rfl
@[simp] theorem State.setPhase_attA (ph : StepPhase) : (s.setPhase i ph).attA = s.attA := rfl
@[simp] theorem State.setPhase_attB (ph : StepPhase) : (s.setPhase i ph).attB = s.attB := rfl
@[simp] theorem State.setPhase_linkA (ph : StepPhase) : (s.setPhase i ph).linkA = s.linkA := rfl
@[simp] theorem State.setPhase_linkB (ph : StepPhase) : (s.setPhase i ph).linkB = s.linkB := rfl
@[simp] theorem State.setPhase_outstanding (ph : StepPhase) : (s.setPhase i ph).outstanding = s.outstanding := rfl
@[simp] theorem State.setPhase_resetLow (ph : StepPhase) : (s.setPhase i ph).resetLow = s.resetLow := rfl
@[simp] theorem State.setPhase_origin (ph : StepPhase) : (s.setPhase i ph).origin = s.origin := rfl
@[simp] theorem State.setPhase_freeCount (ph : StepPhase) : (s.setPhase i ph).freeCount = s.freeCount := rfl
@[simp] theorem State.setPhase_pending (ph : StepPhase) : (s.setPhase i ph).pending = s.pending := rfl

/-! ### `setLoad` -/

@[simp] theorem State.setLoad_now (ph : LoadPhase) : (s.setLoad i ph).now = s.now := rfl
@[simp] theorem State.setLoad_classTable (ph : LoadPhase) : (s.setLoad i ph).classTable = s.classTable := rfl
@[simp] theorem State.setLoad_line (ph : LoadPhase) : (s.setLoad i ph).line = s.line := rfl
@[simp] theorem State.setLoad_timing (ph : LoadPhase) : (s.setLoad i ph).timing = s.timing := rfl
@[simp] theorem State.setLoad_admission (ph : LoadPhase) : (s.setLoad i ph).admission = s.admission := rfl
@[simp] theorem State.setLoad_headSince (ph : LoadPhase) : (s.setLoad i ph).headSince = s.headSince := rfl
@[simp] theorem State.setLoad_headWait (ph : LoadPhase) : (s.setLoad i ph).headWait = s.headWait := rfl
@[simp] theorem State.setLoad_window (ph : LoadPhase) : (s.setLoad i ph).window = s.window := rfl
@[simp] theorem State.setLoad_plans (ph : LoadPhase) : (s.setLoad i ph).plans = s.plans := rfl
@[simp] theorem State.setLoad_trays (ph : LoadPhase) : (s.setLoad i ph).trays = s.trays := rfl
@[simp] theorem State.setLoad_grade (ph : LoadPhase) : (s.setLoad i ph).grade = s.grade := rfl
@[simp] theorem State.setLoad_gradingQueue (ph : LoadPhase) : (s.setLoad i ph).gradingQueue = s.gradingQueue := rfl
@[simp] theorem State.setLoad_engine (ph : LoadPhase) : (s.setLoad i ph).engine = s.engine := rfl
@[simp] theorem State.setLoad_unsetNotice (ph : LoadPhase) : (s.setLoad i ph).unsetNotice = s.unsetNotice := rfl
@[simp] theorem State.setLoad_binQueues (ph : LoadPhase) : (s.setLoad i ph).binQueues = s.binQueues := rfl
@[simp] theorem State.setLoad_lots (ph : LoadPhase) : (s.setLoad i ph).lots = s.lots := rfl
@[simp] theorem State.setLoad_opening (ph : LoadPhase) : (s.setLoad i ph).opening = s.opening := rfl
@[simp] theorem State.setLoad_attA (ph : LoadPhase) : (s.setLoad i ph).attA = s.attA := rfl
@[simp] theorem State.setLoad_attB (ph : LoadPhase) : (s.setLoad i ph).attB = s.attB := rfl
@[simp] theorem State.setLoad_linkA (ph : LoadPhase) : (s.setLoad i ph).linkA = s.linkA := rfl
@[simp] theorem State.setLoad_linkB (ph : LoadPhase) : (s.setLoad i ph).linkB = s.linkB := rfl
@[simp] theorem State.setLoad_outstanding (ph : LoadPhase) : (s.setLoad i ph).outstanding = s.outstanding := rfl
@[simp] theorem State.setLoad_resetLow (ph : LoadPhase) : (s.setLoad i ph).resetLow = s.resetLow := rfl
@[simp] theorem State.setLoad_origin (ph : LoadPhase) : (s.setLoad i ph).origin = s.origin := rfl
@[simp] theorem State.setLoad_freeCount (ph : LoadPhase) : (s.setLoad i ph).freeCount = s.freeCount := rfl
@[simp] theorem State.setLoad_pending (ph : LoadPhase) : (s.setLoad i ph).pending = s.pending := rfl

/-! ### `portOn` -/

@[simp] theorem State.portOn_now : (s.portOn i).now = s.now := rfl
@[simp] theorem State.portOn_classTable : (s.portOn i).classTable = s.classTable := rfl
@[simp] theorem State.portOn_line : (s.portOn i).line = s.line := rfl
@[simp] theorem State.portOn_timing : (s.portOn i).timing = s.timing := rfl
@[simp] theorem State.portOn_load : (s.portOn i).load = s.load := rfl
@[simp] theorem State.portOn_admission : (s.portOn i).admission = s.admission := rfl
@[simp] theorem State.portOn_headSince : (s.portOn i).headSince = s.headSince := rfl
@[simp] theorem State.portOn_headWait : (s.portOn i).headWait = s.headWait := rfl
@[simp] theorem State.portOn_window : (s.portOn i).window = s.window := rfl
@[simp] theorem State.portOn_plans : (s.portOn i).plans = s.plans := rfl
@[simp] theorem State.portOn_trays : (s.portOn i).trays = s.trays := rfl
@[simp] theorem State.portOn_grade : (s.portOn i).grade = s.grade := rfl
@[simp] theorem State.portOn_gradingQueue : (s.portOn i).gradingQueue = s.gradingQueue := rfl
@[simp] theorem State.portOn_engine : (s.portOn i).engine = s.engine := rfl
@[simp] theorem State.portOn_unsetNotice : (s.portOn i).unsetNotice = s.unsetNotice := rfl
@[simp] theorem State.portOn_binQueues : (s.portOn i).binQueues = s.binQueues := rfl
@[simp] theorem State.portOn_lots : (s.portOn i).lots = s.lots := rfl
@[simp] theorem State.portOn_opening : (s.portOn i).opening = s.opening := rfl
@[simp] theorem State.portOn_attA : (s.portOn i).attA = s.attA := rfl
@[simp] theorem State.portOn_attB : (s.portOn i).attB = s.attB := rfl
@[simp] theorem State.portOn_linkA : (s.portOn i).linkA = s.linkA := rfl
@[simp] theorem State.portOn_linkB : (s.portOn i).linkB = s.linkB := rfl
@[simp] theorem State.portOn_outstanding : (s.portOn i).outstanding = s.outstanding := rfl
@[simp] theorem State.portOn_resetLow : (s.portOn i).resetLow = s.resetLow := rfl
@[simp] theorem State.portOn_origin : (s.portOn i).origin = s.origin := rfl
@[simp] theorem State.portOn_freeCount : (s.portOn i).freeCount = s.freeCount := rfl
@[simp] theorem State.portOn_pending : (s.portOn i).pending = s.pending := rfl

/-! ### `powerOnSlot` -/

@[simp] theorem State.powerOnSlot_now : (s.powerOnSlot i).now = s.now := rfl
@[simp] theorem State.powerOnSlot_classTable : (s.powerOnSlot i).classTable = s.classTable := rfl
@[simp] theorem State.powerOnSlot_line : (s.powerOnSlot i).line = s.line := rfl
@[simp] theorem State.powerOnSlot_timing : (s.powerOnSlot i).timing = s.timing := rfl
@[simp] theorem State.powerOnSlot_admission : (s.powerOnSlot i).admission = s.admission := rfl
@[simp] theorem State.powerOnSlot_headSince : (s.powerOnSlot i).headSince = s.headSince := rfl
@[simp] theorem State.powerOnSlot_headWait : (s.powerOnSlot i).headWait = s.headWait := rfl
@[simp] theorem State.powerOnSlot_plans : (s.powerOnSlot i).plans = s.plans := rfl
@[simp] theorem State.powerOnSlot_trays : (s.powerOnSlot i).trays = s.trays := rfl
@[simp] theorem State.powerOnSlot_grade : (s.powerOnSlot i).grade = s.grade := rfl
@[simp] theorem State.powerOnSlot_gradingQueue : (s.powerOnSlot i).gradingQueue = s.gradingQueue := rfl
@[simp] theorem State.powerOnSlot_engine : (s.powerOnSlot i).engine = s.engine := rfl
@[simp] theorem State.powerOnSlot_unsetNotice : (s.powerOnSlot i).unsetNotice = s.unsetNotice := rfl
@[simp] theorem State.powerOnSlot_binQueues : (s.powerOnSlot i).binQueues = s.binQueues := rfl
@[simp] theorem State.powerOnSlot_lots : (s.powerOnSlot i).lots = s.lots := rfl
@[simp] theorem State.powerOnSlot_opening : (s.powerOnSlot i).opening = s.opening := rfl
@[simp] theorem State.powerOnSlot_attA : (s.powerOnSlot i).attA = s.attA := rfl
@[simp] theorem State.powerOnSlot_attB : (s.powerOnSlot i).attB = s.attB := rfl
@[simp] theorem State.powerOnSlot_linkA : (s.powerOnSlot i).linkA = s.linkA := rfl
@[simp] theorem State.powerOnSlot_linkB : (s.powerOnSlot i).linkB = s.linkB := rfl
@[simp] theorem State.powerOnSlot_outstanding : (s.powerOnSlot i).outstanding = s.outstanding := rfl
@[simp] theorem State.powerOnSlot_resetLow : (s.powerOnSlot i).resetLow = s.resetLow := rfl
@[simp] theorem State.powerOnSlot_origin : (s.powerOnSlot i).origin = s.origin := rfl
@[simp] theorem State.powerOnSlot_freeCount : (s.powerOnSlot i).freeCount = s.freeCount := rfl
@[simp] theorem State.powerOnSlot_pending : (s.powerOnSlot i).pending = s.pending := rfl

end Sys2Proof.Machine
end

