-- ==== Sys2Proof/Laws/Slots.lean ====
section
/-! SUPPORT. Reading a slot, a tray, a link or a master's attention after a write. -/

namespace Sys2Proof.Machine

variable (s : State) (i j : SlotId) (p q : Port)

theorem mem_allSlots (i : SlotId) : i ∈ allSlots := by revert i; decide

theorem allSlots_nodup : allSlots.Nodup := by decide

/-! ## Slots -/

theorem State.slot_setSlot (x : Slot) : (s.setSlot i x).slot j = if i = j then x else s.slot j := by
  simp only [State.slot, State.setSlot]
  by_cases h : i = j
  · subst h; simp
  · rw [if_neg h]; exact Vector.getElem_set_ne _ _ (fun e => h (Fin.ext e))

@[simp] theorem State.slot_setSlot_self (x : Slot) : (s.setSlot i x).slot i = x := by simp [State.slot_setSlot]

theorem State.slot_setSlot_ne (x : Slot) (h : i ≠ j) : (s.setSlot i x).slot j = s.slot j := by
  simp [State.slot_setSlot, h]

theorem State.slot_modSlot (f : Slot → Slot) : (s.modSlot i f).slot j = if i = j then f (s.slot j) else s.slot j := by
  unfold State.modSlot; rw [State.slot_setSlot]; split <;> simp_all

@[simp] theorem State.slot_modSlot_self (f : Slot → Slot) : (s.modSlot i f).slot i = f (s.slot i) := by
  simp [State.slot_modSlot]

theorem State.slot_modRecord (f : Record → Record) :
    (s.modRecord i f).slot j = if i = j then { s.slot j with record := f (s.slot j).record } else s.slot j :=
  State.slot_modSlot s i j _

theorem State.record_modRecord (f : Record → Record) :
    (s.modRecord i f).record j = if i = j then f (s.record j) else s.record j := by
  unfold State.record; rw [State.slot_modRecord]; split <;> rfl

@[simp] theorem State.record_modRecord_self (f : Record → Record) : (s.modRecord i f).record i = f (s.record i) := by
  simp [State.record_modRecord]

theorem State.dpe_modDpe (f : Engine → Engine) : (s.modDpe i f).dpe j = if i = j then f (s.dpe j) else s.dpe j := by
  unfold State.dpe State.modDpe; rw [State.slot_modSlot]; split <;> rfl

@[simp] theorem State.dpe_modDpe_self (f : Engine → Engine) : (s.modDpe i f).dpe i = f (s.dpe i) := by
  simp [State.dpe_modDpe]

/-- An update of a slot that keeps its record keeps every record. -/
theorem State.record_modSlot_of (f : Slot → Slot) (h : (f (s.slot i)).record = (s.slot i).record) :
    (s.modSlot i f).record j = s.record j := by
  unfold State.record; rw [State.slot_modSlot]; split
  · rename_i e; subst e; exact h
  · rfl

@[simp] theorem State.record_modSm (f : SlotTimers → SlotTimers) : (s.modSm i f).record j = s.record j :=
  State.record_modSlot_of s i j _ rfl

@[simp] theorem State.record_modPau (f : PowerTimers → PowerTimers) : (s.modPau i f).record j = s.record j :=
  State.record_modSlot_of s i j _ rfl

@[simp] theorem State.record_modDpe (f : Engine → Engine) : (s.modDpe i f).record j = s.record j :=
  State.record_modSlot_of s i j _ rfl

@[simp] theorem State.record_modTest (f : TestRecord → TestRecord) : (s.modTest i f).record j = s.record j :=
  State.record_modSlot_of s i j _ rfl

@[simp] theorem State.dpe_modRecord (f : Record → Record) : (s.modRecord i f).dpe j = s.dpe j := by
  unfold State.dpe; rw [State.slot_modRecord]; split <;> rfl

@[simp] theorem State.dpe_modSm (f : SlotTimers → SlotTimers) : (s.modSm i f).dpe j = s.dpe j := by
  unfold State.dpe State.modSm; rw [State.slot_modSlot]; split <;> rfl

@[simp] theorem State.dpe_modPau (f : PowerTimers → PowerTimers) : (s.modPau i f).dpe j = s.dpe j := by
  unfold State.dpe State.modPau; rw [State.slot_modSlot]; split <;> rfl

@[simp] theorem State.record_modRun (f : RunContext → RunContext) :
    (s.modRun i f).record j = if i = j then { s.record j with run := (s.record j).run.map f } else s.record j :=
  State.record_modRecord s i j _

@[simp] theorem State.dpe_modRun (f : RunContext → RunContext) : (s.modRun i f).dpe j = s.dpe j := State.dpe_modRecord s i j _

@[simp] theorem State.dpe_enter (st : SlotState) : (s.enter i st).dpe j = s.dpe j := by simp [State.enter]

/-- R4: what a change of state leaves of a record. -/
theorem State.record_enter (st : SlotState) :
    (s.enter i st).record j =
      if i = j then
        { s.record j with state := st, purpose := if st = .poweringDown then (s.record j).purpose else none
                          holdCause := if st = .held then (s.record j).holdCause else none }
      else s.record j := by
  simp [State.enter, State.record_modRecord]

@[simp] theorem State.state_enter (st : SlotState) : ((s.enter i st).record i).state = st := by simp [State.record_enter]

/-- A field of the state that is not the slots leaves the slots. -/
theorem State.slot_congr {s t : State} (h : t.slots = s.slots) (i : SlotId) : t.slot i = s.slot i := by
  simp [State.slot, h]

theorem State.record_congr {s t : State} (h : t.slots = s.slots) (i : SlotId) : t.record i = s.record i := by
  simp [State.record, State.slot, h]

/-! ## Trays, links, attention -/

theorem State.trays_modTray (t u : TrayId) (f : Tray → Tray) :
    (s.modTray t f).trays[u] = if t = u then f s.trays[u] else s.trays[u] := by
  simp only [State.modTray]
  by_cases h : t = u
  · subst h; simp
  · rw [if_neg h]; exact Vector.getElem_set_ne _ _ (fun e => h (Fin.ext e))

theorem State.link_modLink (f : LinkPort → LinkPort) :
    (s.modLink p f).link q = if p = q then f (s.link q) else s.link q := by
  cases p <;> cases q <;> rfl

@[simp] theorem State.link_modLink_self (f : LinkPort → LinkPort) : (s.modLink p f).link p = f (s.link p) := by
  cases p <;> rfl

@[simp] theorem State.link_modAtt (f : Attention → Attention) : (s.modAtt p f).link q = s.link q := by
  cases p <;> cases q <;> rfl

theorem State.att_modAtt (f : Attention → Attention) :
    (s.modAtt p f).att q = if p = q then f (s.att q) else s.att q := by
  cases p <;> cases q <;> rfl

@[simp] theorem State.att_modAtt_self (f : Attention → Attention) : (s.modAtt p f).att p = f (s.att p) := by
  cases p <;> rfl

@[simp] theorem State.att_modLink (f : LinkPort → LinkPort) : (s.modLink p f).att q = s.att q := by
  cases p <;> cases q <;> rfl

end Sys2Proof.Machine
end

