-- ==== Sys2Proof/Laws/Moves.lean ====
section
/-! SUPPORT. What the shared operations can do, said once: every one of them is a run of moves of ten kinds. What holds across
each kind of move then holds across every operation. -/

namespace Sys2Proof.Machine

/-- No SPINUP entry of slot `i` waits in the admission queue. -/
def NoSpin (s : State) (i : SlotId) : Prop := ∀ e ∈ s.admission, e.kind = .spinup → e.slot ≠ i

/-- What R170 asks of a master's attention within an event, and R172 of its mask: while the notice state is CLEAR, a summary
that is not empty has a first cause recorded. -/
def Attention.Tame (a : Attention) (p : Port) : Prop :=
  a.MaskReceived p ∧ (a.notice = .clear → a.isEmpty = false → a.first ≠ none)

/-- A port's FIFO and link state stay, and its outgoing path gains only packets that R179 does not count. -/
def LinkPort.Gains (l m : LinkPort) : Prop :=
  m.fifo = l.fifo ∧ m.link = l.link ∧ ∃ xs, m.out = l.out ++ xs ∧ ∀ x ∈ xs, x.counted = false

/-- One move. `spin` says whether SPINUP entries may be filed. -/
inductive Move (spin : Prop) : State → State → Prop
  /-- A slot changes but for its load phase; a state that has no power, or no SPINUP entry, is entered as R31 and R32 ask. -/
  | slot (s : State) (i : SlotId) (x : Slot) (phase : x.record.phase = (s.record i).phase)
      (cls : x.record.cls = (s.record i).cls ∨ (s.record i).phase = .off)
      (state : x.record.state = (s.record i).state ∨
        ((x.record.state.unpowered = true → (s.record i).phase = .off) ∧
          (x.record.state = .spinWait ∨ x.record.state = .running ∨ NoSpin s i)))
      (log : (s.slot i).test.log.length ≤ 64 → x.test.log.length ≤ 64) : Move spin s (s.setSlot i x)
  /-- A load phase falls to OFF or RUN, or rises from RUN to SEEK. -/
  | load (s : State) (i : SlotId) (ph : LoadPhase)
      (h : ph = .off ∨ (ph = .run ∧ (s.record i).phase ≠ .off) ∨ (ph = .seek ∧ (s.record i).phase = .run)) :
      Move spin s (s.setLoad i ph)
  /-- A SPINUP head is admitted. -/
  | power (s : State) (e : AdmissionEntry) (rest : List AdmissionEntry) (queue : s.admission = e :: rest)
      (kind : e.kind = .spinup) : Move spin s ({ s with admission := rest }.admitSpinup e.slot)
  /-- Entries leave the admission queue. -/
  | drop (s : State) (q : List AdmissionEntry) (since : RackTime) (wait : Option RackTime)
      (h : q.Sublist s.admission) : Move spin s { s with admission := q, headSince := since, headWait := wait }
  /-- An entry is filed at the tail. -/
  | file (s : State) (i : SlotId) (kind : AdmissionKind)
      (spinup : kind = .spinup → spin ∧ ((s.record i).state = .spinWait ∨ (s.record i).state = .running))
      (fresh : ∀ e ∈ s.admission, e.slot ≠ i) :
      Move spin s { s with admission := s.admission ++ [{ slot := i, kind := kind, arrival := s.now }] }
  /-- The window history changes. -/
  | window (s : State) (w : List RackTime) : Move spin s { s with window := w }
  /-- A tray changes, and stays sound if it was. -/
  | tray (s : State) (t : TrayId) (f : Tray → Tray) (h : (s.trays[t]).Sound t → (f s.trays[t]).Sound t) :
      Move spin s (s.modTray t f)
  /-- A master's attention changes as R164 to R169 allow. -/
  | attention (s : State) (p : Port) (f : Attention → Attention) (h : (s.att p).Tame p → (f (s.att p)).Tame p) :
      Move spin s (s.modAtt p f)
  /-- A port's outgoing path gains packets that R179 does not count, or its held notices change. -/
  | link (s : State) (p : Port) (f : LinkPort → LinkPort) (h : LinkPort.Gains (s.link p) (f (s.link p))) :
      Move spin s (s.modLink p f)
  /-- The stores without an invariant here: plans, grading, bins and lots, outstanding replies, the count of free values. -/
  | stores (s : State) (plans : Vector Plan 8) (queue : List GradingEntry) (engine : Option Grading) (notice : Bool)
      (bins : Vector (List SlotId) 7) (lots : Vector Lot 8) (opening : List LotId) (out : List Outstanding) (free : Nat) :
      Move spin s { s with plans := plans, gradingQueue := queue, engine := engine, unsetNotice := notice
                           binQueues := bins, lots := lots, opening := opening, outstanding := out, freeCount := free }

/-- A move that files no SPINUP entry is a move. -/
theorem Move.weaken {sp : Prop} {s t : State} (h : Move False s t) : Move sp s t := by
  cases h with
  | slot i x phase cls state log => exact .slot _ _ _ phase cls state log
  | load i ph h => exact .load _ _ _ h
  | power e rest q k => exact .power _ _ _ q k
  | drop q a b h => exact .drop _ _ _ _ h
  | file i kind k f => exact .file _ _ _ (fun e => (k e).1.elim) f
  | window w => exact .window _ _
  | tray t f h => exact .tray _ _ _ h
  | attention p f h => exact .attention _ _ _ h
  | link p f h => exact .link _ _ _ h
  | stores => exact .stores ..

/-- A run of moves. -/
inductive Moves (spin : Prop) : State → State → Prop
  | refl (s : State) : Moves spin s s
  | tail {s t u : State} : Moves spin s t → Move spin t u → Moves spin s u

namespace Moves

variable {sp : Prop} {s t u : State} {i : SlotId}

theorem one (h : Move sp s t) : Moves sp s t := (Moves.refl s).tail h

theorem trans (h : Moves sp s t) (k : Moves sp t u) : Moves sp s u := by
  induction k with
  | refl => exact h
  | tail _ m ih => exact ih.tail m

/-- Moves that file no SPINUP entry are moves. -/
theorem weaken (h : Moves False s t) : Moves sp s t := by
  induction h with
  | refl => exact .refl _
  | tail _ m ih => exact ih.tail m.weaken

end Moves

end Sys2Proof.Machine
end

