-- ==== Sys2Proof/Laws/Safe.lean ====
section
/-! SUPPORT. What holds across every move, and so across every shared operation: the frame, the invariants of Safety.lean, and,
while no SPINUP entry is filed, that a slot without one does not leave load phase OFF. -/

namespace Sys2Proof.Machine

variable {sp : Prop} {s t u : State} {i j : SlotId} {p : Port}

/-! ## The frame -/

/-- The clock, the settings, the reset input, the origin of the last reset and the queue of commands are the same. -/
structure SameSetup (s t : State) : Prop where
  now        : t.now = s.now
  classTable : t.classTable = s.classTable
  line       : t.line = s.line
  timing     : t.timing = s.timing
  grade      : t.grade = s.grade
  resetLow   : t.resetLow = s.resetLow
  origin     : t.origin = s.origin
  pending    : t.pending = s.pending

theorem SameSetup.refl (s : State) : SameSetup s s := by constructor <;> rfl

theorem SameSetup.trans (h : SameSetup s t) (k : SameSetup t u) : SameSetup s u where
  now := k.now.trans h.now
  classTable := k.classTable.trans h.classTable
  line := k.line.trans h.line
  timing := k.timing.trans h.timing
  grade := k.grade.trans h.grade
  resetLow := k.resetLow.trans h.resetLow
  origin := k.origin.trans h.origin
  pending := k.pending.trans h.pending

theorem State.admitSpinup_same (s : State) (i : SlotId) : SameSetup s (s.admitSpinup i) := by
  unfold State.admitSpinup; split <;> constructor <;> simp

theorem Move.same (h : Move sp s t) : SameSetup s t := by
  cases h with
  | power e rest _ _ => exact SameSetup.trans (by constructor <;> rfl) (State.admitSpinup_same _ _)
  | _ => constructor <;> simp

theorem Moves.same (h : Moves sp s t) : SameSetup s t := by
  induction h with
  | refl => exact .refl _
  | tail _ m ih => exact ih.trans m.same

/-! ## Trays -/

theorem State.admitSpinup_trays (s : State) (i : SlotId) : (s.admitSpinup i).trays = s.trays := by
  unfold State.admitSpinup; split <;> simp

theorem Move.trays (h : Move sp s t) (k : s.TraysSound) : t.TraysSound := by
  cases h with
  | tray t f h =>
    intro u
    rw [State.trays_modTray]
    split
    · rename_i e; subst e; exact h (k t)
    · exact k u
  | power e rest _ _ => intro u; rw [State.admitSpinup_trays]; exact k u
  | attention p f h => intro u; have := k u; simpa using this
  | link p f h => intro u; have := k u; simpa using this
  | _ => intro u; exact k u

theorem Moves.trays (h : Moves sp s t) (k : s.TraysSound) : t.TraysSound := by
  induction h with
  | refl => exact k
  | tail _ m ih => exact m.trays ih

/-! ## Attention and links -/

/-- Every master's attention is tame. -/
def State.Tame (s : State) : Prop := ∀ p, (s.att p).Tame p

theorem State.att_congr (a : t.attA = s.attA) (b : t.attB = s.attB) (p : Port) : t.att p = s.att p := by
  cases p <;> simp [State.att, a, b]

theorem State.link_congr (a : t.linkA = s.linkA) (b : t.linkB = s.linkB) (p : Port) : t.link p = s.link p := by
  cases p <;> simp [State.link, a, b]

theorem State.admitSpinup_att (s : State) (i : SlotId) (p : Port) : (s.admitSpinup i).att p = s.att p := by
  unfold State.admitSpinup; split <;> apply State.att_congr <;> simp

theorem State.admitSpinup_link (s : State) (i : SlotId) (p : Port) : (s.admitSpinup i).link p = s.link p := by
  unfold State.admitSpinup; split <;> apply State.link_congr <;> simp

theorem Move.tame (h : Move sp s t) (k : s.Tame) : t.Tame := by
  intro q
  cases h with
  | attention p f h =>
    rw [State.att_modAtt]
    split
    · rename_i e; subst e; exact h (k _)
    · exact k q
  | power e rest _ _ => rw [State.admitSpinup_att]; exact k q
  | link p f h => rw [State.att_modLink]; exact k q
  | slot i x _ _ _ _ => rw [State.att_congr (s := s) (by simp) (by simp)]; exact k q
  | load i ph _ => rw [State.att_congr (s := s) (by simp) (by simp)]; exact k q
  | tray t f h => rw [State.att_congr (s := s) (by simp) (by simp)]; exact k q
  | _ => exact k q

theorem Moves.tame (h : Moves sp s t) (k : s.Tame) : t.Tame := by
  induction h with
  | refl => exact k
  | tail _ m ih => exact m.tame ih

theorem State.admitSpinup_log (s : State) (i j : SlotId) : ((s.admitSpinup i).slot j).test = (s.slot j).test := by
  unfold State.admitSpinup
  split
  · simp only [State.powerOnSlot, State.enter, State.portOn, State.setLoad, State.modSm, State.modPau, State.modDpe,
      State.modRecord, State.slot_modSlot]
    split <;> (unfold State.slot State.modSlot State.setSlot; simp [Vector.getElem_set]; try split) <;> simp_all [State.slot]
  · simp only [State.powerOnSlot, State.setPhase, State.modRun, State.portOn, State.setLoad, State.modPau, State.modDpe,
      State.modRecord, State.slot_modSlot]
    split <;> (unfold State.slot State.modSlot State.setSlot; simp [Vector.getElem_set]; try split) <;> simp_all [State.slot]
  · rfl

/-- The slots after a change of load phase (R31). -/
theorem State.slot_setLoad (s : State) (i j : SlotId) (ph : LoadPhase) :
    (s.setLoad i ph).slot j = (s.modRecord i fun r => { r with phase := ph }).slot j := rfl

theorem LinkPort.Gains.refl (l : LinkPort) : l.Gains l := ⟨rfl, rfl, [], by simp, by simp⟩

theorem LinkPort.Gains.trans {l m n : LinkPort} (h : l.Gains m) (k : m.Gains n) : l.Gains n := by
  obtain ⟨a, b, xs, c, d⟩ := h
  obtain ⟨a', b', ys, c', d'⟩ := k
  refine ⟨a'.trans a, b'.trans b, xs ++ ys, by rw [c', c, List.append_assoc], fun x hx => ?_⟩
  rcases List.mem_append.mp hx with hx | hx
  · exact d x hx
  · exact d' x hx

/-- R179: the unsent replies stay as many. -/
theorem LinkPort.Gains.unsent {l m : LinkPort} (h : l.Gains m) : m.unsent = l.unsent := by
  obtain ⟨_, _, xs, c, d⟩ := h
  have none : xs.filter OutPacket.counted = [] := List.filter_eq_nil_iff.mpr fun x hx => by simp [d x hx]
  simp [LinkPort.unsent, c, none]

theorem Move.links (h : Move sp s t) (q : Port) : (s.link q).Gains (t.link q) := by
  cases h with
  | link p f h =>
    rw [State.link_modLink]
    split
    · rename_i e; subst e; exact h
    · exact .refl _
  | power e rest _ _ => rw [State.admitSpinup_link]; exact .refl _
  | attention p f h => rw [State.link_modAtt]; exact .refl _
  | slot i x _ _ _ _ => rw [State.link_congr (s := s) (by simp) (by simp)]; exact .refl _
  | load i ph _ => rw [State.link_congr (s := s) (by simp) (by simp)]; exact .refl _
  | tray t f h => rw [State.link_congr (s := s) (by simp) (by simp)]; exact .refl _
  | _ => exact .refl _

/-- The LI's frame: no operation of another block takes a packet, changes a link, or places a reply that R179 counts. -/
theorem Moves.links (h : Moves sp s t) (q : Port) : (s.link q).Gains (t.link q) := by
  induction h with
  | refl => exact .refl _
  | tail _ m ih => exact ih.trans (m.links q)

/-- R119: every step log keeps its bound. -/
def State.LogsBounded (s : State) : Prop := ∀ i, (s.slot i).test.log.length ≤ 64

theorem Move.logs (h : Move sp s t) (k : s.LogsBounded) : t.LogsBounded := by
  intro j
  cases h with
  | slot i x _ _ _ log =>
    rw [State.slot_setSlot]
    split
    · exact log (k i)
    · exact k j
  | power e rest _ _ => rw [State.admitSpinup_log]; exact k j
  | load i ph _ =>
    have : ((s.setLoad i ph).slot j).test = (s.slot j).test := by
      rw [State.slot_setLoad, State.slot_modRecord]; split <;> rfl
    rw [this]; exact k j
  | link p f _ => rw [State.slot_congr (s := s) (by simp)]; exact k j
  | attention p f _ => rw [State.slot_congr (s := s) (by simp)]; exact k j
  | tray t f _ => rw [State.slot_congr (s := s) (by simp)]; exact k j
  | _ => exact k j

theorem Moves.logs (h : Moves sp s t) (k : s.LogsBounded) : t.LogsBounded := by
  induction h with
  | refl => exact k
  | tail _ m ih => exact m.logs ih

/-! ## Power -/

/-- A sum over a list without repeats, where one place changes. -/
theorem sum_change {α : Type} (f g : α → Nat) (i : α) : ∀ l : List α, l.Nodup → i ∈ l → (∀ j, j ≠ i → g j = f j) →
    (l.map g).sum + f i = (l.map f).sum + g i
  | [], _, h, _ => by simp at h
  | a :: l, hn, hm, hj => by
    rw [List.nodup_cons] at hn
    by_cases e : a = i
    · subst e
      have : l.map g = l.map f := List.map_congr_left fun x hx => hj x fun e => hn.1 (e ▸ hx)
      simp only [List.map_cons, List.sum_cons, this]; omega
    · have hi : i ∈ l := by simpa [Ne.symm e] using hm
      have := sum_change f g i l hn.2 hi hj
      simp only [List.map_cons, List.sum_cons, hj a e]; omega

/-- The phase load of one slot is part of the sum. -/
theorem le_sum_of_mem {α : Type} (f : α → Nat) (i : α) : ∀ l : List α, i ∈ l → f i ≤ (l.map f).sum
  | [], h => by simp at h
  | a :: l, h => by
    simp only [List.map_cons, List.sum_cons]
    rcases List.mem_cons.mp h with rfl | h
    · omega
    · have := le_sum_of_mem f i l h; omega

/-- What the phase load of a slot depends on. -/
theorem State.phaseLoad_congr (c : t.classTable = s.classTable) (k : (t.record i).cls = (s.record i).cls)
    (h : (t.record i).phase = (s.record i).phase) : t.phaseLoad i = s.phaseLoad i := by
  simp [State.phaseLoad, State.loadIn, State.classEntry, c, k, h]

/-- A slot in load phase OFF adds nothing (R31). -/
theorem State.phaseLoad_off (h : (s.record i).phase = .off) : s.phaseLoad i = 0 := by
  simp [State.phaseLoad, State.loadIn, h, ClassEntry.loadIn]

theorem State.record_setLoad (s : State) (i j : SlotId) (ph : LoadPhase) :
    (s.setLoad i ph).record j = if i = j then { s.record j with phase := ph } else s.record j := by
  unfold State.record
  rw [State.slot_setLoad, State.slot_modRecord]; split <;> rfl

theorem State.setLoad_load (s : State) (i : SlotId) (ph : LoadPhase) :
    (s.setLoad i ph).load = s.load + s.loadIn i ph - s.phaseLoad i := rfl

/-- L is the sum of the phase loads (R31). -/
def State.Balanced (s : State) : Prop := s.load = (allSlots.map s.phaseLoad).sum

/-- R31: a change of load phase keeps L the sum. -/
theorem State.setLoad_balanced (i : SlotId) (ph : LoadPhase) (h : s.Balanced) : (s.setLoad i ph).Balanced := by
  unfold State.Balanced at *
  have new : (s.setLoad i ph).phaseLoad i = s.loadIn i ph := by
    simp [State.phaseLoad, State.loadIn, State.classEntry, State.record_setLoad]
  have other : ∀ j, j ≠ i → (s.setLoad i ph).phaseLoad j = s.phaseLoad j := fun j hj => by
    apply State.phaseLoad_congr (by simp) <;> rw [State.record_setLoad, if_neg (Ne.symm hj)]
  have a := sum_change s.phaseLoad (s.setLoad i ph).phaseLoad i allSlots allSlots_nodup (mem_allSlots i) other
  have b := le_sum_of_mem s.phaseLoad i allSlots (mem_allSlots i)
  rw [State.setLoad_load, h]
  rw [new] at a
  omega

/-- A change that leaves every phase load and L leaves the balance. -/
theorem State.balanced_congr (hl : t.load = s.load) (h : ∀ j, t.phaseLoad j = s.phaseLoad j) (k : s.Balanced) :
    t.Balanced := by
  unfold State.Balanced at *
  rw [hl, k]
  exact congrArg List.sum (List.map_congr_left fun j _ => (h j).symm)

theorem State.enter_phase (s : State) (i j : SlotId) (st : SlotState) :
    ((s.enter i st).record j).phase = (s.record j).phase := by
  rw [State.record_enter]; split <;> rfl

theorem State.enter_cls (s : State) (i j : SlotId) (st : SlotState) : ((s.enter i st).record j).cls = (s.record j).cls := by
  rw [State.record_enter]; split <;> rfl

theorem State.setPhase_record (s : State) (i j : SlotId) (ph : StepPhase) :
    ((s.setPhase i ph).record j).phase = (s.record j).phase ∧ ((s.setPhase i ph).record j).cls = (s.record j).cls ∧
      ((s.setPhase i ph).record j).state = (s.record j).state := by
  simp only [State.setPhase, State.record_modRun]; split <;> simp

theorem State.record_powerOnSlot (s : State) (i j : SlotId) :
    (s.powerOnSlot i).record j = if i = j then { s.record j with phase := .surge } else s.record j := by
  simp only [State.powerOnSlot, State.portOn, State.record_modDpe, State.record_modPau, State.record_setLoad]
  rfl

/-- R36: what the admission of a SPINUP does to the records. -/
theorem State.record_admitSpinup (s : State) (i j : SlotId) :
    ((s.admitSpinup i).record j).cls = (s.record j).cls ∧
    (i ≠ j → ((s.admitSpinup i).record j).phase = (s.record j).phase ∧
      ((s.admitSpinup i).record j).state = (s.record j).state) ∧
    (i = j → ((s.admitSpinup i).record j).state.unpowered = true → (s.admitSpinup i).record j = s.record j) := by
  unfold State.admitSpinup
  split
  · rw [State.record_enter]
    simp only [State.record_powerOnSlot]
    split <;> simp_all [SlotState.unpowered]
  · rename_i h
    obtain ⟨a, b, c⟩ := State.setPhase_record (s.powerOnSlot i) i j .surge
    rw [a, b, c, State.record_powerOnSlot]
    split
    · rename_i e; subst e; simp [h, SlotState.unpowered]
    · simp_all
  · simp

theorem State.admitSpinup_balanced (i : SlotId) (h : s.Balanced) : (s.admitSpinup i).Balanced := by
  have base : (s.powerOnSlot i).Balanced := by
    have := State.setLoad_balanced (s := { s with window := s.youngWindow ++ [s.now] }) i .surge h
    refine State.balanced_congr (s := State.setLoad { s with window := s.youngWindow ++ [s.now] } i .surge) rfl (fun j => ?_) this
    apply State.phaseLoad_congr (s := State.setLoad { s with window := s.youngWindow ++ [s.now] } i .surge)
      (t := s.powerOnSlot i) rfl <;> simp [State.powerOnSlot, State.portOn]
  unfold State.admitSpinup
  split
  · exact State.balanced_congr (by simp) (fun j => State.phaseLoad_congr (by simp) (State.enter_cls ..) (State.enter_phase ..)) base
  · refine State.balanced_congr (by simp) (fun j => ?_) base
    obtain ⟨a, b, _⟩ := State.setPhase_record (s.powerOnSlot i) i j .surge
    exact State.phaseLoad_congr (by simp) b a
  · exact h

theorem State.admitSpinup_admission (s : State) (i : SlotId) : (s.admitSpinup i).admission = s.admission := by
  unfold State.admitSpinup; split <;> simp

/-- PowerSafe looks at records, the class table, L and the queue. -/
theorem State.powerSafe_congr (hr : ∀ j, t.record j = s.record j) (hc : t.classTable = s.classTable)
    (hl : t.load = s.load) (ha : t.admission = s.admission) (k : s.PowerSafe) : t.PowerSafe where
  load := State.balanced_congr hl (fun j => State.phaseLoad_congr hc (by rw [hr]) (by rw [hr])) k.load
  column j := by rw [hr]; exact k.column j
  spinup := by rw [ha]; intro e he hk; rw [hr]; exact k.spinup e he hk
  single := by rw [ha]; exact k.single

theorem Move.powerSafe (h : Move sp s t) (k : s.PowerSafe) : t.PowerSafe := by
  cases h with
  | slot i x phase cls state log =>
    have hrec : ∀ j, (s.setSlot i x).record j = if i = j then x.record else s.record j := fun j => by
      unfold State.record; rw [State.slot_setSlot]; split <;> rfl
    refine ⟨State.balanced_congr (by simp) (fun j => ?_) k.load, fun j hj => ?_, fun e he hk => ?_, k.single⟩
    · by_cases e : i = j
      · subst e
        rcases cls with cls | off
        · apply State.phaseLoad_congr (by simp) <;> simp [hrec, cls, phase]
        · rw [State.phaseLoad_off off, State.phaseLoad_off]; simp [hrec, phase, off]
      · apply State.phaseLoad_congr (by simp) <;> simp [hrec, e]
    · rw [hrec] at hj ⊢
      split at hj <;> rename_i e
      · subst e
        simp only [if_true]
        rw [phase]
        rcases state with same | ⟨off, _⟩
        · exact k.column i (same ▸ hj)
        · exact off hj
      · rw [if_neg e]; exact k.column j hj
    · rw [hrec]
      split
      · rename_i e'; subst e'
        rcases state with same | ⟨_, a | a | a⟩
        · rw [same]; exact k.spinup e he hk
        · exact .inl a
        · exact .inr a
        · exact absurd rfl (a e he hk)
      · exact k.spinup e he hk
  | load i ph h =>
    refine ⟨State.setLoad_balanced i ph k.load, fun j hj => ?_, fun e he hk => ?_, k.single⟩
    · rw [State.record_setLoad] at hj ⊢
      by_cases e : i = j
      · subst e
        simp only [if_true] at hj ⊢
        have := k.column i hj
        rcases h with h | ⟨_, h⟩ | ⟨_, h⟩
        · exact h
        · exact absurd this h
        · rw [this] at h; cases h
      · rw [if_neg e] at hj ⊢; exact k.column j hj
    · rw [State.record_setLoad]
      have := k.spinup e he hk
      split <;> simpa using this
  | power e rest q kind =>
    have single : e.slot ∉ rest.map AdmissionEntry.slot ∧ (rest.map AdmissionEntry.slot).Nodup := by
      have := k.single; rw [q, List.map_cons, List.nodup_cons] at this; exact this
    have base : State.PowerSafe { s with admission := rest } :=
      ⟨k.load, k.column, fun x hx hk => k.spinup x (by rw [q]; exact List.mem_cons_of_mem _ hx) hk, single.2⟩
    refine ⟨State.admitSpinup_balanced _ base.load, fun j hj => ?_, fun x hx hk => ?_, ?_⟩
    · obtain ⟨_, b, c⟩ := State.record_admitSpinup { s with admission := rest } e.slot j
      by_cases eq : e.slot = j
      · have := c eq hj; rw [this] at hj ⊢; exact base.column j hj
      · rw [(b eq).1]; exact base.column j ((b eq).2 ▸ hj)
    · rw [State.admitSpinup_admission] at hx
      have ne : e.slot ≠ x.slot := fun eq => single.1 (eq ▸ List.mem_map_of_mem hx)
      obtain ⟨_, b, _⟩ := State.record_admitSpinup { s with admission := rest } e.slot x.slot
      rw [(b ne).2]; exact base.spinup x hx hk
    · rw [State.admitSpinup_admission]; exact single.2
  | drop q a b h =>
    exact ⟨k.load, k.column, fun e he hk => k.spinup e (h.subset he) hk, (h.map _).nodup k.single⟩
  | file i kind hs fresh =>
    refine ⟨k.load, k.column, fun e he hk => ?_, ?_⟩
    · rcases List.mem_append.mp he with he | he
      · exact k.spinup e he hk
      · rw [List.mem_singleton] at he; subst he; exact (hs hk).2
    · rw [List.map_append, List.nodup_append]
      refine ⟨k.single, by simp, fun a ha b hb => ?_⟩
      obtain ⟨e, he, rfl⟩ := List.mem_map.mp ha
      simp only [List.map_cons, List.map_nil, List.mem_singleton] at hb
      subst hb; exact fresh e he
  | window w => exact State.powerSafe_congr (s := s) (fun _ => rfl) rfl rfl rfl k
  | tray t f _ => exact State.powerSafe_congr (s := s) (fun _ => rfl) rfl rfl rfl k
  | attention p f _ => exact State.powerSafe_congr (s := s) (State.record_congr (by simp)) (by simp) (by simp) (by simp) k
  | link p f _ => exact State.powerSafe_congr (s := s) (State.record_congr (by simp)) (by simp) (by simp) (by simp) k
  | stores => exact State.powerSafe_congr (s := s) (fun _ => rfl) rfl rfl rfl k

theorem Moves.powerSafe (h : Moves sp s t) (k : s.PowerSafe) : t.PowerSafe := by
  induction h with
  | refl => exact k
  | tail _ m ih => exact m.powerSafe ih

/-! ## A slot without a SPINUP entry -/

theorem Move.noSpin (h : Move False s t) (k : NoSpin s i) : NoSpin t i := by
  cases h with
  | power e rest q _ =>
    intro x hx hk; rw [State.admitSpinup_admission] at hx
    exact k x (by rw [q]; exact List.mem_cons_of_mem _ hx) hk
  | drop q a b h => exact fun x hx hk => k x (h.subset hx) hk
  | file j kind hs _ =>
    intro x hx hk
    rcases List.mem_append.mp hx with hx | hx
    · exact k x hx hk
    · rw [List.mem_singleton] at hx; subst hx; exact (hs hk).1.elim
  | attention p f _ => intro x hx; exact k x (by simpa using hx)
  | link p f _ => intro x hx; exact k x (by simpa using hx)
  | _ => exact k

theorem Moves.noSpin (h : Moves False s t) (k : NoSpin s i) : NoSpin t i := by
  induction h with
  | refl => exact k
  | tail _ m ih => exact m.noSpin ih

theorem Move.off (h : Move False s t) (k : NoSpin s i) (o : (s.record i).phase = .off) : (t.record i).phase = .off := by
  cases h with
  | slot j x phase _ _ _ =>
    unfold State.record; rw [State.slot_setSlot]
    split
    · rename_i e; subst e; rw [phase]; exact o
    · exact o
  | load j ph h =>
    rw [State.record_setLoad]
    split
    · rename_i e; subst e
      rcases h with h | ⟨_, h⟩ | ⟨_, h⟩
      · exact h
      · exact absurd o h
      · rw [o] at h; cases h
    · exact o
  | power e rest q kind =>
    have ne : e.slot ≠ i := k e (by rw [q]; exact List.mem_cons_self) kind
    obtain ⟨_, b, _⟩ := State.record_admitSpinup { s with admission := rest } e.slot i
    rw [(b ne).1]; exact o
  | attention p f _ => rw [State.record_congr (s := s) (by simp)]; exact o
  | link p f _ => rw [State.record_congr (s := s) (by simp)]; exact o
  | _ => exact o

theorem Moves.off (h : Moves False s t) (k : NoSpin s i) (o : (s.record i).phase = .off) :
    (t.record i).phase = .off := by
  induction h with
  | refl => exact o
  | tail a m ih => exact m.off (a.noSpin k) ih

end Sys2Proof.Machine
end

