-- ==== Sys2Proof/Laws/Ops.lean ====
section
/-! SUPPORT. One lemma for each shared operation up to the BLU: after a run of moves, the operation makes it a longer run. Where an
operation needs something of the state (a slot without power, no SPINUP entry), the lemma asks for it. -/

namespace Sys2Proof.Machine

/-! ## Ops.lean -/

namespace Moves

variable {sp : Prop} {s t : State} {i : SlotId} {p : Port}

theorem modRecord (h : Moves sp s t) {f : Record → Record} (a : ∀ r, (f r).phase = r.phase := by intros; rfl)
    (b : ∀ r, (f r).cls = r.cls := by intros; rfl) (c : ∀ r, (f r).state = r.state := by intros; rfl) :
    Moves sp s (t.modRecord i f) := h.tail (.slot _ _ _ (a _) (.inl (b _)) (.inl (c _)) id)

theorem modSm (h : Moves sp s t) {f : SlotTimers → SlotTimers} : Moves sp s (t.modSm i f) :=
  h.tail (.slot _ _ _ rfl (.inl rfl) (.inl rfl) id)

theorem modPau (h : Moves sp s t) {f : PowerTimers → PowerTimers} : Moves sp s (t.modPau i f) :=
  h.tail (.slot _ _ _ rfl (.inl rfl) (.inl rfl) id)

theorem modDpe (h : Moves sp s t) {f : Engine → Engine} : Moves sp s (t.modDpe i f) :=
  h.tail (.slot _ _ _ rfl (.inl rfl) (.inl rfl) id)

theorem modTest (h : Moves sp s t) {f : TestRecord → TestRecord}
    (a : ∀ r, r.log.length ≤ 64 → (f r).log.length ≤ 64 := by intro r h; exact h) : Moves sp s (t.modTest i f) :=
  h.tail (.slot _ _ _ rfl (.inl rfl) (.inl rfl) (a _))

theorem modRun (h : Moves sp s t) {f : RunContext → RunContext} : Moves sp s (t.modRun i f) := h.modRecord

theorem modPlan (h : Moves sp s t) {n : PlanId} {f : Plan → Plan} : Moves sp s (t.modPlan n f) := h.tail (.stores ..)

theorem usePlan (h : Moves sp s t) {n : PlanId} : Moves sp s (t.usePlan n) := h.modPlan

theorem releasePlan (h : Moves sp s t) {n : PlanId} : Moves sp s (t.releasePlan n) := h.modPlan

theorem modLot (h : Moves sp s t) {n : LotId} {f : Lot → Lot} : Moves sp s (t.modLot n f) := h.tail (.stores ..)

theorem modBin (h : Moves sp s t) {b : Bin} {f : List SlotId → List SlotId} : Moves sp s (t.modBin b f) :=
  h.tail (.stores ..)

theorem clearTest (h : Moves sp s t) : Moves sp s (t.clearTest i) := h.modTest fun _ _ => by simp

theorem startDeclare (h : Moves sp s t) : Moves sp s (t.startDeclare i) := h.modSm

theorem startUnload (h : Moves sp s t) : Moves sp s (t.startUnload i) := h.modSm

/-- R4: a state is entered; one without power only at load phase OFF, and one but SPIN_WAIT and RUNNING only without a SPINUP
entry. -/
theorem enter (h : Moves sp s t) {st : SlotState} (a : st.unpowered = true → (t.record i).phase = .off)
    (b : st = .spinWait ∨ st = .running ∨ NoSpin t i) : Moves sp s (t.enter i st) := by
  have k : Moves sp s (t.modRecord i fun r =>
      { r with state := st, purpose := if st = .poweringDown then r.purpose else none
               holdCause := if st = .held then r.holdCause else none }) :=
    h.tail (.slot _ _ _ rfl (.inl rfl) (.inr ⟨a, b⟩) id)
  unfold State.enter
  exact k.modSm

end Moves

/-! ## The AU and the outgoing paths -/

theorem addCause_ne_nil {α : Type} [DecidableEq α] (set : List α) (c : α) : addCause set c ≠ [] := by
  unfold addCause; split
  · rename_i h; intro e; simp [e] at h
  · simp

theorem addCause_isEmpty {α : Type} [DecidableEq α] (set : List α) (c : α) : (addCause set c).isEmpty = false := by
  simpa using addCause_ne_nil set c

/-- A cause already pending makes the summary not empty. -/
theorem Attention.isEmpty_false_of_slot (a : Attention) {k : SlotCause} {i : SlotId} (h : k ∈ a.slotSets[i]) :
    a.isEmpty = false := by
  simp only [Attention.isEmpty, Bool.and_eq_false_iff, List.all_eq_false]
  exact .inl ⟨i, mem_allSlots i, by simpa using List.ne_nil_of_mem h⟩

theorem Attention.isEmpty_false_of_rack (a : Attention) {k : RackCause} (h : k ∈ a.rackSet) : a.isEmpty = false := by
  simp only [Attention.isEmpty, Bool.and_eq_false_iff]
  exact .inr (by simpa using List.ne_nil_of_mem h)

/-- R165, R170: raising a cause keeps an attention tame. -/
theorem Attention.raise_tame {a : Attention} {p : Port} (h : a.Tame p) (c : Cause) : (a.raise c).Tame p := by
  obtain ⟨m, n⟩ := h
  cases c <;> dsimp only [Attention.raise] <;> split
  · refine ⟨m, fun hn _ => ?_⟩
    dsimp only at hn ⊢
    split
    · rename_i e; exact n hn (a.isEmpty_false_of_slot e)
    · cases a.first <;> simp
  · exact ⟨m, n⟩
  · refine ⟨m, fun hn _ => ?_⟩
    dsimp only at hn ⊢
    split
    · rename_i e; exact n hn (a.isEmpty_false_of_rack e)
    · cases a.first <;> simp
  · exact ⟨m, n⟩

/-- Causes that leave sets keep an attention tame. -/
theorem Attention.Tame.of_fewer {a b : Attention} {p : Port} (h : a.Tame p) (m : b.MaskReceived p)
    (n : b.notice = a.notice) (f : b.first = a.first) (e : a.isEmpty = true → b.isEmpty = true) : b.Tame p := by
  refine ⟨m, fun hn he => f ▸ h.2 (n ▸ hn) ?_⟩
  cases ha : a.isEmpty
  · rfl
  · rw [e ha] at he; cases he

/-- An attention whose sets have lost causes is empty if it was. -/
theorem Attention.isEmpty_mono {a b : Attention} (hs : ∀ i : SlotId, b.slotSets[i] ⊆ a.slotSets[i])
    (hr : b.rackSet ⊆ a.rackSet) (h : a.isEmpty = true) : b.isEmpty = true := by
  simp only [Attention.isEmpty, Bool.and_eq_true, List.all_eq_true, List.isEmpty_iff] at h ⊢
  exact ⟨fun i hi => List.subset_nil.mp (h.1 i hi ▸ hs i), List.subset_nil.mp (h.2 ▸ hr)⟩

namespace Moves

variable {sp : Prop} {s t : State} {i : SlotId} {p : Port}

theorem raiseTo (h : Moves sp s t) {c : Cause} : Moves sp s (t.raiseTo p c) :=
  h.tail (.attention _ _ _ fun k => Attention.raise_tame k c)

theorem raiseSlot (h : Moves sp s t) {c : SlotCause} : Moves sp s (t.raiseSlot c i) := h.raiseTo.raiseTo

theorem clearSlotCauses (h : Moves sp s t) :
    Moves sp s (t.modAtt p fun a => { a with slotSets := a.slotSets.set i [] }) :=
  h.tail (.attention _ _ _ fun k => k.of_fewer k.1 rfl rfl (Attention.isEmpty_mono (fun j => by
    by_cases e : i = j
    · subst e; simp
    · simp [Fin.val_inj, e]) (List.Subset.refl _)))

/-- R169. -/
theorem dropCauses (h : Moves sp s t) : Moves sp s (t.dropCauses i) := by
  unfold State.dropCauses; exact h.clearSlotCauses.clearSlotCauses

theorem pushOut (h : Moves sp s t) {x : OutPacket} (c : x.counted = false := by rfl) : Moves sp s (t.pushOut p x) :=
  h.tail (.link _ _ _ ⟨rfl, rfl, [x], rfl, by simpa using c⟩)

theorem placeNotice (h : Moves sp s t) {n : Notice} : Moves sp s (t.placeNotice p n) := by
  unfold State.placeNotice
  split
  · exact h.tail (.link _ _ _ ⟨rfl, rfl, [], by simp, by simp⟩)
  · split
    · exact h.pushOut
    · exact h

/-! ## The DPEs -/

theorem replyDirect (h : Moves sp s t) {st : Status} {body : List Word} : Moves sp s (t.replyDirect i st body) := by
  unfold State.replyDirect
  split
  · exact h
  · have k : Moves sp s { t with outstanding := t.outstanding.filter fun o => o.slot != i } := h.tail (.stores ..)
    dsimp only
    split
    · exact k.pushOut
    · exact k

theorem endDirect (h : Moves sp s t) : Moves sp s (t.endDirect i) := by
  unfold State.endDirect; split
  · exact h
  · exact h.modDpe.replyDirect

theorem startPatrol (h : Moves sp s t) : Moves sp s (t.startPatrol i) := by
  unfold State.startPatrol; split
  · exact h.modDpe
  · exact h

theorem openPort (h : Moves sp s t) : Moves sp s (t.openPort i) := by
  unfold State.openPort
  dsimp only
  repeat' split
  all_goals first | exact h | exact h.modDpe | exact h.modDpe.modRun

theorem offer (h : Moves sp s t) {o : Owner} {op : Operation} {n : Nat} : Moves sp s (t.offer i o op n) :=
  h.modDpe.openPort

theorem takeBack (h : Moves sp s t) : Moves sp s (t.takeBack i) := h.modDpe

theorem resetPort (h : Moves sp s t) : Moves sp s (t.resetPort i) := h.modDpe

theorem portOn (h : Moves sp s t) : Moves sp s (t.portOn i) := h.modDpe

theorem portOff (h : Moves sp s t) : Moves sp s (t.portOff i) := h.endDirect.modDpe

theorem teardownPort (h : Moves sp s t) : Moves sp s (t.teardownPort i) := by
  unfold State.teardownPort; dsimp only; split
  · exact h.endDirect.resetPort.modDpe
  · exact h.endDirect.modDpe

/-! ## The SA -/

theorem accountSegment (h : Moves sp s t) {a n : Nat} {c : Completion} : Moves sp s (t.accountSegment i a n c) := by
  unfold State.accountSegment; exact h.modTest

theorem accountStorm (h : Moves sp s t) {c : Completion} : Moves sp s (t.accountStorm i c) := h.modTest

theorem accountHot (h : Moves sp s t) : Moves sp s (t.accountHot i) := h.modTest

end Moves

/-- R119: the step log never holds more than 64 entries. -/
theorem TestRecord.append_log (t : TestRecord) (e : LogEntry) (h : t.log.length ≤ 64) : (t.append e).log.length ≤ 64 := by
  unfold TestRecord.append
  split <;> simp [Config.logDepth] at * <;> omega

theorem Moves.logStep {sp : Prop} {s t : State} {i : SlotId} (h : Moves sp s t) {o : StepOutcome} :
    Moves sp s (t.logStep i o) := by
  unfold State.logStep; split
  · exact h.modTest fun _ k => TestRecord.append_log _ _ k
  · exact h

/-! ## The PAU -/

namespace Moves

variable {sp : Prop} {s t : State} {i : SlotId} {p : Port}

theorem setPhase (h : Moves sp s t) {ph : StepPhase} : Moves sp s (t.setPhase i ph) := h.modRun

theorem proceedWith (h : Moves sp s t) {b : BandState} {op : Operation} {n : Nat} :
    Moves sp s (t.proceedWith i b op n) := by
  unfold State.proceedWith; split
  · exact h.setPhase
  · exact h.setPhase.offer

theorem proceedSweep (h : Moves sp s t) : Moves sp s (t.proceedSweep i) := by
  unfold State.proceedSweep; split
  · exact h.proceedWith
  · exact h

theorem proceedStorm (h : Moves sp s t) : Moves sp s (t.proceedStorm i) := by
  unfold State.proceedStorm; split
  · exact h.proceedWith
  · exact h

theorem drop (h : Moves sp s t) {q : List AdmissionEntry} (k : q.Sublist t.admission) :
    Moves sp s { t with admission := q } := h.tail (.drop _ _ _ _ k)

theorem newHead (h : Moves sp s t) : Moves sp s t.newHead := by
  unfold State.newHead
  split <;> exact h.tail (.drop _ _ _ _ (List.Sublist.refl _))

theorem admitSeek (h : Moves sp s t) : Moves sp s (t.admitSeek i) := by
  unfold State.admitSeek; split
  · rename_i k; exact (h.tail (.load _ _ _ (.inr (.inr ⟨rfl, k.2⟩)))).proceedStorm
  · exact h

/-- R36, R37: the head leaves the queue and is admitted. -/
theorem admitHead (h : Moves sp s t) {e : AdmissionEntry} {rest : List AdmissionEntry} (q : t.admission = e :: rest) :
    Moves sp s ({ t with admission := rest }.admitEntry e) := by
  unfold State.admitEntry; split
  · rename_i k; exact h.tail (.power _ _ _ q k)
  · exact (h.drop (by rw [q]; exact List.sublist_cons_self _ _)).admitSeek

theorem testHeads (n : Nat) : ∀ {t : State}, Moves sp s t → Moves sp s (State.testHeads n t) := by
  induction n with
  | zero => exact id
  | succ n ih =>
    intro t h
    unfold State.testHeads
    split
    · exact h
    · split
      · rename_i q _; exact ih (h.admitHead q).newHead
      · exact h

theorem testHead (h : Moves sp s t) : Moves sp s t.testHead := testHeads _ h

/-- R32. -/
theorem fileAdmission (h : Moves sp s t) {kind : AdmissionKind}
    (a : kind = .spinup → sp ∧ ((t.record i).state = .spinWait ∨ (t.record i).state = .running)) :
    Moves sp s (t.fileAdmission i kind) := by
  unfold State.fileAdmission
  split
  · exact h
  · rename_i k
    have fresh : ∀ e ∈ t.admission, e.slot ≠ i := by simpa using k
    have filed := h.tail (.file _ i kind a fresh)
    dsimp only
    split
    · rename_i e
      rw [List.isEmpty_iff] at e
      rw [e] at filed
      exact filed.newHead.testHead
    · exact filed

theorem removeAdmission (h : Moves sp s t) : Moves sp s (t.removeAdmission i) := by
  unfold State.removeAdmission
  dsimp only
  split
  · exact h
  · split
    · exact (h.drop List.filter_sublist).newHead.testHead
    · exact h.drop List.filter_sublist

theorem endSurge (h : Moves sp s t) : Moves sp s (t.endSurge i) := by
  unfold State.endSurge; split
  · rename_i k; exact ((h.tail (.load _ _ _ (.inr (.inl ⟨rfl, by simp [k]⟩)))).modPau).testHead
  · exact h

theorem releaseSeek (h : Moves sp s t) : Moves sp s (t.releaseSeek i) := by
  unfold State.releaseSeek; split
  · rename_i k; exact (h.tail (.load _ _ _ (.inr (.inl ⟨rfl, by simp [k]⟩)))).testHead
  · exact h

theorem setOff (h : Moves sp s t) : Moves sp s (t.setLoad i .off) := h.tail (.load _ _ _ (.inl rfl))

theorem switchOff (h : Moves sp s t) : Moves sp s (t.switchOff i) := h.setOff.modPau.portOff

theorem cutPower (h : Moves sp s t) : Moves sp s (t.cutPower i) := by
  unfold State.cutPower; split
  · exact h.switchOff.testHead
  · exact h

end Moves

/-! ## What the removals leave -/

section
variable {s t : State} {i : SlotId}

/-- R33: no SPINUP entry of the slot is left. -/
theorem State.removeAdmission_noSpin (s : State) (i : SlotId) : NoSpin (s.removeAdmission i) i := by
  have gone : ∀ e ∈ s.admission.filter fun e => e.slot != i, e.slot ≠ i := fun e he => by simpa using (List.mem_filter.mp he).2
  unfold State.removeAdmission
  dsimp only
  split
  · rename_i q; intro e he; rw [q] at he; cases he
  · split
    · exact (Moves.refl _).newHead.testHead.noSpin fun e he _ => gone e he
    · exact fun e he _ => gone e he

theorem State.record_portOff (s : State) (i j : SlotId) : (s.portOff i).record j = s.record j := by
  have reply : ∀ (u : State) (st : Status) (b : List Word), (u.replyDirect i st b).record j = u.record j := fun u st b => by
    unfold State.replyDirect
    split
    · rfl
    · dsimp only; split <;> apply State.record_congr <;> rfl
  unfold State.portOff State.endDirect
  split <;> simp [reply]

/-- R42: a slot whose power has been cut, and that has no SPINUP entry, is at load phase OFF. -/
theorem State.cutPower_off (h : NoSpin s i) : ((s.cutPower i).record i).phase = .off := by
  unfold State.cutPower
  split
  · have off : ((s.switchOff i).record i).phase = .off := by
      simp [State.switchOff, State.record_portOff, State.record_setLoad]
    have spin : NoSpin (s.switchOff i) i := (Moves.refl s).switchOff.noSpin h
    exact (Moves.refl _).testHead.off spin off
  · rename_i k; simpa [Record.powered] using k

/-- R32: a slot in neither SPIN_WAIT nor RUNNING has no SPINUP entry. -/
theorem State.PowerSafe.noSpin (h : s.PowerSafe) (a : (s.record i).state ≠ .spinWait) (b : (s.record i).state ≠ .running) :
    NoSpin s i := by
  rintro e he hk rfl
  rcases h.spinup e he hk with x | x
  · exact a x
  · exact b x

end

/-! ## The VGA -/

section
variable {n : TrayId}

/-- R100: the release of claims keeps a tray sound. -/
theorem Tray.sound_release {t : Tray} (h : t.Sound n) (f : Holder → Bool) :
    Tray.Sound { t with holders := t.holders.filter f } n where
  unmixed := by
    rcases h.unmixed with h | h
    · exact .inl (by simp_all [Tray.quietCount])
    · exact .inr (by simp_all [Tray.stormCount])
  once := (((List.filter_sublist (p := f)).map _).append_right _).nodup h.once
  own i hi := h.own i ((((List.filter_sublist (p := f)).map _).append_right _).subset hi)

/-- R103: entries that leave the waiting queue keep a tray sound. -/
theorem Tray.sound_leave {t : Tray} (h : t.Sound n) {q : List TrayEntry} (sub : q.Sublist t.queue) :
    Tray.Sound { t with queue := q } n where
  unmixed := h.unmixed
  once := ((sub.map _).append_left _).nodup h.once
  own i hi := h.own i (((sub.map _).append_left _).subset hi)

/-- R97, R99: a compatible grant keeps a tray unmixed. -/
theorem Tray.unmixed_grant {t : Tray} (i : SlotId) (k : ClaimKind) (h : t.compatible k = true) :
    Tray.Unmixed { t with holders := t.holders ++ [{ slot := i, kind := k }] } := by
  cases k
  · right
    simpa [Tray.compatible, Tray.stormCount] using h
  · left
    simpa [Tray.compatible, Tray.quietCount] using h

/-- R98, R99: a compatible head that leaves the queue for the holder set keeps a tray sound. -/
theorem Tray.sound_turn {t : Tray} {e : TrayEntry} {rest : List TrayEntry} (h : t.Sound n) (q : t.queue = e :: rest)
    (c : t.compatible e.kind = true) :
    Tray.Sound { t with holders := t.holders ++ [{ slot := e.slot, kind := e.kind }], queue := rest } n := by
  have same : ({ t with holders := t.holders ++ [{ slot := e.slot, kind := e.kind }], queue := rest } : Tray).slots = t.slots := by
    simp [Tray.slots, q]
  exact ⟨Tray.unmixed_grant e.slot e.kind c, same ▸ h.once, same ▸ h.own⟩

/-- R97: a request of a slot that the tray does not name keeps the tray sound, granted or queued. -/
theorem Tray.sound_request {t : Tray} {i : SlotId} (h : t.Sound (trayOf i)) (new : t.names i = false) :
    (∀ k, t.compatible k = true → Tray.Sound { t with holders := t.holders ++ [{ slot := i, kind := k }] } (trayOf i)) ∧
      ∀ k at_, Tray.Sound { t with queue := t.queue ++ [{ slot := i, kind := k, arrival := at_ }] } (trayOf i) := by
  have fresh : i ∉ t.slots := by
    simp only [Tray.names, Bool.or_eq_false_iff, List.any_eq_false, beq_iff_eq] at new
    simp only [Tray.slots, List.mem_append, List.mem_map, not_or, not_exists, not_and]
    exact new
  have own : ∀ j, j ∈ t.slots ∨ j = i → trayOf j = trayOf i := fun j hj => hj.elim (h.own j) fun e => by rw [e]
  have once := List.nodup_append.mp h.once
  have onceH (k : ClaimKind) : (Tray.slots { t with holders := t.holders ++ [{ slot := i, kind := k }] }).Nodup := by
    have : (t.holders.map Holder.slot ++ [i] ++ t.queue.map TrayEntry.slot).Perm (i :: t.slots) := by
      simp [Tray.slots]
    simpa [Tray.slots] using this.nodup_iff.mpr (List.nodup_cons.mpr ⟨fresh, h.once⟩)
  have onceQ (e : TrayEntry) (he : e.slot = i) : (Tray.slots { t with queue := t.queue ++ [e] }).Nodup := by
    have : (t.slots ++ [i]).Nodup := List.nodup_append.mpr ⟨h.once, by simp, fun a ha b hb e => fresh (by simp_all)⟩
    simpa [Tray.slots, he] using this
  refine ⟨fun k c => ⟨Tray.unmixed_grant i k c, onceH k, fun j hj => own j ?_⟩,
    fun k at_ => ⟨h.unmixed, onceQ _ rfl, fun j hj => own j ?_⟩⟩ <;>
  · simp only [Tray.slots, List.map_append, List.map_cons, List.map_nil, List.mem_append, List.mem_singleton] at hj ⊢
    revert hj
    simp only [or_imp]
    simp +contextual
theorem Tray.sound_empty (n : TrayId) : Tray.Sound {} n where
  unmixed := .inl rfl
  once := List.nodup_nil
  own _ h := absurd h List.not_mem_nil

/-- Two changes of one tray are one. -/
theorem State.modTray_modTray (s : State) (n : TrayId) (f g : Tray → Tray) :
    (s.modTray n f).modTray n g = s.modTray n fun t => g (f t) := by
  simp [State.modTray]

end

namespace Moves

variable {sp : Prop} {s t : State} {i : SlotId} {n : TrayId}

theorem grantClaim {k : ClaimKind}
    (h : Moves sp s (t.modTray n fun x => { x with holders := x.holders ++ [{ slot := i, kind := k }] })) :
    Moves sp s (t.grantClaim n i k) := by
  unfold State.grantClaim
  dsimp only
  split
  · exact h.proceedSweep
  · exact h.setPhase.fileAdmission (by simp)

theorem testTrays (m : Nat) : ∀ {t : State}, Moves sp s t → Moves sp s (State.testTrays m n t) := by
  induction m with
  | zero => exact id
  | succ m ih =>
    intro t h
    unfold State.testTrays
    split
    · exact h
    · split
      · rename_i q c
        refine ih (grantClaim ?_)
        rw [State.modTray_modTray]
        exact h.tail (.tray _ _ _ fun k => Tray.sound_turn (t := t.trays[n]) k q c)
      · exact h

theorem testTray (h : Moves sp s t) : Moves sp s (t.testTray n) := testTrays _ h

theorem requestClaim (h : Moves sp s t) {k : ClaimKind} : Moves sp s (t.requestClaim i k) := by
  unfold State.requestClaim
  dsimp only
  split
  · exact h
  · rename_i new
    rw [Bool.not_eq_true] at new
    split
    · rename_i c
      rw [Bool.and_eq_true] at c
      exact grantClaim (h.tail (.tray _ _ _ fun z => (Tray.sound_request z new).1 k c.2))
    · exact h.tail (.tray _ _ _ fun z => (Tray.sound_request z new).2 k _)

theorem releaseClaim (h : Moves sp s t) : Moves sp s (t.releaseClaim i) := by
  unfold State.releaseClaim; split
  · exact (h.tail (.tray _ _ _ fun k => Tray.sound_release k _)).testTray
  · exact h

theorem withdrawClaim (h : Moves sp s t) : Moves sp s (t.withdrawClaim i) := by
  unfold State.withdrawClaim
  split
  · exact h
  · rename_i q
    split
    · exact (h.tail (.tray _ _ _ fun k => Tray.sound_leave k (q ▸ List.sublist_cons_self _ _))).testTray
    · exact h.tail (.tray _ _ _ fun k => Tray.sound_leave k (q ▸ List.filter_sublist.cons_cons _))

theorem returnTray (h : Moves sp s t) : Moves sp s (t.returnTray i) := h.releaseClaim.withdrawClaim

/-! ## The BLU -/

theorem setPlacement (h : Moves sp s t) {q : Placement} : Moves sp s (t.setPlacement i q) := h.modRecord

variable {l : LotId}

theorem setEntries (h : Moves sp s t) {es : List LotEntry} : Moves sp s (t.setEntries l es) := h.modLot

theorem setLotState (h : Moves sp s t) {st : LotState} : Moves sp s (t.setLotState l st) := h.modLot

theorem testFull (h : Moves sp s t) : Moves sp s (t.testFull l) := by
  unfold State.testFull; split
  · exact h.setLotState.raiseTo
  · exact h

theorem appendEntry (h : Moves sp s t) {v : Verdict} : Moves sp s (t.appendEntry l i v) :=
  h.setEntries.setPlacement.testFull

theorem placeSlot (h : Moves sp s t) : Moves sp s (t.placeSlot i) := by
  unfold State.placeSlot; split
  · exact h
  · split
    · exact h.appendEntry
    · exact h.modBin.setPlacement

theorem leaveQueue (h : Moves sp s t) : Moves sp s (t.leaveQueue i) := by
  unfold State.leaveQueue; split
  · exact h.modBin.setPlacement
  · exact h

theorem drainInto (q : List SlotId) : ∀ {t : State}, Moves sp s t → Moves sp s (State.drainInto l q t) := by
  induction q with
  | nil => exact id
  | cons i q ih =>
    intro t h
    unfold State.drainInto
    split
    · exact h
    · split
      · exact h
      · exact ih h.modBin.appendEntry

theorem fillLot (h : Moves sp s t) : Moves sp s (t.fillLot l) := drainInto _ h

theorem freeLot (h : Moves sp s t) : Moves sp s (t.freeLot l) := h.tail (.stores ..)

theorem testComplete (h : Moves sp s t) : Moves sp s (t.testComplete l) := by
  unfold State.testComplete; dsimp only; split
  · exact h.setLotState.raiseTo
  · exact h

theorem markEntry (h : Moves sp s t) {a b : EntryState} : Moves sp s (t.markEntry i a b) := by
  unfold State.markEntry; split
  · exact h.setEntries
  · exact h

theorem testSlotLot (h : Moves sp s t) : Moves sp s (t.testSlotLot i) := by
  unfold State.testSlotLot; split
  · exact h.testComplete
  · exact h

theorem pickDone (h : Moves sp s t) : Moves sp s (t.pickDone i) := h.markEntry.testSlotLot

theorem mispick (h : Moves sp s t) : Moves sp s (t.mispick i) := h.markEntry.testSlotLot.leaveQueue

/-! ## The GE -/

theorem tryTake (h : Moves sp s t) : Moves sp s t.tryTake := by
  unfold State.tryTake; split
  · split
    · exact h.tail (.stores ..)
    · exact h
  · exact h

theorem noteUnset (h : Moves sp s t) : Moves sp s t.noteUnset := by
  unfold State.noteUnset; split
  · exact h
  · exact Moves.raiseTo (h.tail (.stores ..))

theorem fileGrading (h : Moves sp s t) {q : PlanId} : Moves sp s (t.fileGrading i q) :=
  (Moves.noteUnset (h.tail (.stores ..))).tryTake

theorem teardownGrading (h : Moves sp s t) : Moves sp s (t.teardownGrading i) := by
  unfold State.teardownGrading; split <;> exact h.tail (.stores ..)

end Moves

end Sys2Proof.Machine
end

