-- ==== Sys2Proof/Laws/Blocks.lean ====
section
/-! SUPPORT. One lemma for each operation of the SM and the SQ, for the events of slots, ports, timers and the engine, and for
the requests but the four that change settings: from a power-safe state each is a run of moves. -/

namespace Sys2Proof.Machine

namespace Moves

variable {sp : Prop} {s t : State} {i : SlotId}

/-! ## The SM -/

theorem enterDone (h : Moves sp s t) {v : Verdict} (a : (t.record i).phase = .off) (b : NoSpin t i) :
    Moves sp s (t.enterDone i v) := by
  unfold State.enterDone
  exact ((h.enter (fun _ => a) (.inr (.inr b))).modSm.modRecord.placeSlot).raiseSlot

theorem enterUnloading (h : Moves sp s t) (a : (t.record i).phase = .off) (b : NoSpin t i) :
    Moves sp s (t.enterUnloading i) := by
  unfold State.enterUnloading
  exact ((h.enter (fun _ => a) (.inr (.inr b))).modSm).startUnload

theorem enterGrading (h : Moves sp s t) (a : (t.record i).phase = .off) (b : NoSpin t i) :
    Moves sp s (t.enterGrading i) := by
  unfold State.enterGrading
  exact ((h.enter (fun _ => a) (.inr (.inr b))).modSm).fileGrading

theorem dropPlans (h : Moves sp s t) : Moves sp s (t.dropPlans i) := by
  unfold State.dropPlans
  dsimp only
  split <;> split <;> first
    | exact h.releasePlan.releasePlan.modRecord
    | exact h.releasePlan.modRecord
    | exact h.modRecord

/-- R17: teardown up to the removal of the slot's entry. -/
theorem teardown (h : Moves sp s t) {o : StepOutcome} : Moves sp s (t.teardown i o) := by
  unfold State.teardown
  exact h.logStep.teardownPort.removeAdmission.releaseSeek.returnTray.teardownGrading.dropPlans.dropCauses

end Moves

/-- R17: a torn-down slot has no SPINUP entry. -/
theorem State.teardown_noSpin (s : State) (i : SlotId) (o : StepOutcome) : NoSpin (s.teardown i o) i := by
  unfold State.teardown
  exact (((((Moves.refl _).releaseSeek).returnTray.teardownGrading).dropPlans).dropCauses).noSpin
    (State.removeAdmission_noSpin _ i)

namespace Moves

variable {sp : Prop} {s t : State} {i : SlotId}

/-- R12, R76: a slot without power moves to SPIN_WAIT and files its SPINUP entry. -/
theorem enterSpinWait (h : Moves True s t) (a : (t.record i).phase = .off) : Moves True s (t.enterSpinWait i) := by
  unfold State.enterSpinWait
  exact (h.enter (fun _ => a) (.inl rfl)).fileAdmission fun _ => ⟨trivial, .inl (by simp)⟩

theorem endPowerDown (q : s.PowerSafe) (h : Moves sp s t) : Moves sp s (t.endPowerDown i) := by
  unfold State.endPowerDown
  split
  · exact h
  · rename_i st
    have st : (t.record i).state = .poweringDown := by simpa using st
    have none : NoSpin t i := (h.powerSafe q).noSpin (by simp [st]) (by simp [st])
    have off := State.cutPower_off none
    have none := (Moves.refl t).cutPower (i := i) |>.noSpin none
    dsimp only
    split
    · exact h.cutPower.enterGrading off none
    · exact h.cutPower.enterDone off none
    · exact h.cutPower.enterUnloading off none
    · exact h.cutPower

theorem powerDown (q : s.PowerSafe) (h : Moves sp s t) (b : NoSpin t i) {p : Purpose} :
    Moves sp s (t.powerDown i p) := by
  have k : Moves sp s ((t.enter i .poweringDown).modRecord i fun r => { r with purpose := some p }) :=
    (h.enter (by simp [SlotState.unpowered]) (.inr (.inr b))).modRecord
  unfold State.powerDown
  dsimp only
  split
  · split
    · exact k.startPatrol.offer
    · exact k.offer
  · exact endPowerDown q k

theorem faultToDone (h : Moves sp s t) {f : FaultCause} : Moves sp s (t.faultToDone i f) := by
  have none := State.teardown_noSpin t i .fault
  unfold State.faultToDone
  exact h.teardown.cutPower.enterDone (State.cutPower_off none) ((Moves.refl _).cutPower.noSpin none)

theorem takeFault (q : s.PowerSafe) (h : Moves sp s t) {f : FaultCause} : Moves sp s (t.takeFault i f) := by
  unfold State.takeFault
  split
  iterate 6 exact h.faultToDone
  · rename_i st
    split
    · have none : NoSpin t i := (h.powerSafe q).noSpin (by simp [st]) (by simp [st])
      unfold State.faultToUnloading
      exact (h.cutPower.enterUnloading (State.cutPower_off none) ((Moves.refl _).cutPower.noSpin none)).raiseSlot
    · exact h.faultToDone
  all_goals exact h

/-- R10: a slot without power and without a SPINUP entry becomes EMPTY. -/
theorem becomeEmpty (h : Moves sp s t) (a : (t.record i).phase = .off) (b : NoSpin t i) :
    Moves sp s (t.becomeEmpty i) :=
  h.tail (.slot _ _ _ a.symm (.inr a) (.inr ⟨fun _ => a, .inr (.inr b)⟩) fun _ => by simp)

theorem doneToUnloading (q : s.PowerSafe) (h : Moves sp s t) : Moves sp s (t.doneToUnloading i) := by
  unfold State.doneToUnloading
  split
  · rename_i st
    have k := h.powerSafe q
    exact h.enterUnloading (k.column i (by simp [st, SlotState.unpowered])) (k.noSpin (by simp [st]) (by simp [st]))
  · exact h

/-! ## The SQ -/

theorem evaluateBand (h : Moves sp s t) {f : Bool} : Moves sp s (t.evaluateBand i f) := h.modRun

theorem proceed (h : Moves sp s t) : Moves sp s (t.proceed i) := by
  unfold State.proceed
  split
  · exact h.proceedSweep
  · exact h.proceedStorm
  · exact h

theorem actOnBand (h : Moves sp s t) : Moves sp s (t.actOnBand i) := by
  unfold State.actOnBand
  repeat' split
  all_goals first | exact h | exact h.proceed | exact h.takeBack.setPhase

theorem temperatureToSq (h : Moves sp s t) : Moves sp s (t.temperatureToSq i) := h.evaluateBand.actOnBand

theorem markHeld (h : Moves sp s t) (b : NoSpin t i) {c : HoldCause} : Moves sp s (t.markHeld i c) := by
  have spin : NoSpin ((t.takeBack i).modRun i fun c => c.heldAt (t.stepEntry i) (t.takeBack i).freeCount) i :=
    ((Moves.refl t).takeBack.modRun).noSpin b
  have k : Moves sp s ((((t.takeBack i).modRun i fun c => c.heldAt (t.stepEntry i) (t.takeBack i).freeCount).enter i
      .held).modRecord i fun r => { r with holdCause := some c }) :=
    (h.takeBack.modRun.enter (by simp [SlotState.unpowered]) (.inr (.inr spin))).modRecord
  unfold State.markHeld
  dsimp only
  split
  · exact k.tail (.stores ..)
  · exact k

theorem enterHeld (h : Moves sp s t) {c : HoldCause} : Moves sp s (t.enterHeld i c) := by
  have k := ((h.removeAdmission.markHeld (State.removeAdmission_noSpin t i) (c := c)).returnTray (i := i)).releaseSeek (i := i)
  unfold State.enterHeld
  dsimp only
  split
  · exact k.raiseTo
  · exact k.raiseTo
  · exact k
  · exact k

theorem openStep (h : Moves sp s t) {k : Nat} : Moves sp s (t.openStep i k) := by
  unfold State.openStep
  dsimp only
  split
  · exact h.modRun.modRun.evaluateBand
  · exact h.modRun.evaluateBand

theorem closeStep (h : Moves sp s t) : Moves sp s (t.closeStep i) :=
  (h.logStep.returnTray.releaseSeek.removeAdmission).modRun

end Moves

theorem State.closeStep_noSpin (s : State) (i : SlotId) : NoSpin (s.closeStep i) i :=
  ((Moves.refl _).modRun).noSpin (State.removeAdmission_noSpin _ i)

namespace Moves

variable {sp : Prop} {s t : State} {i : SlotId}

theorem firstAction (h : Moves sp s t) : Moves sp s (t.firstAction i) := by
  unfold State.firstAction
  split
  · exact h.setPhase
  · split
    · exact h.setPhase.requestClaim
    · exact h.proceedSweep
  · exact h.setPhase.requestClaim
  · exact h.setPhase.offer
  · exact h

theorem notifyStep (h : Moves sp s t) {c : Byte} : Moves sp s (t.notifyStep i c) := (h.modRecord).raiseTo

theorem holdStep (h : Moves sp s t) : Moves sp s (t.holdStep i) := h.logStep.enterHeld

theorem endStep (q : s.PowerSafe) (h : Moves sp s t) : Moves sp s (t.endStep i) := by
  unfold State.endStep
  dsimp only
  split
  · exact h.closeStep
  · exact powerDown q ((h.closeStep.releasePlan.modRecord).modSm)
      ((((Moves.refl _).releasePlan.modRecord).modSm).noSpin (State.closeStep_noSpin t i))

theorem setCounter (h : Moves sp s t) {k v : Nat} : Moves sp s (t.setCounter i k v) := h.modRun

theorem beginStep (q : s.PowerSafe) (fuel : Nat) :
    ∀ {t : State} {k : Nat}, Moves sp s t → Moves sp s (State.beginStep fuel i k t) := by
  induction fuel with
  | zero => exact id
  | succ n ih =>
    intro t k h
    have o := h.openStep (i := i) (k := k)
    unfold State.beginStep
    dsimp only
    split
    · exact ih o.notifyStep.closeStep
    · exact ih o.setCounter.closeStep
    · exact o.holdStep
    · exact endStep q o
    · split
      · exact o.enterHeld
      · exact o.firstAction
    · exact o

theorem runStep (q : s.PowerSafe) (h : Moves sp s t) {k : Nat} : Moves sp s (t.runStep i k) := beginStep q _ h

theorem endOfStep (q : s.PowerSafe) (h : Moves sp s t) : Moves sp s (t.endOfStep i) := by
  unfold State.endOfStep; split
  · exact runStep q h.closeStep
  · exact h

theorem startRun (q : s.PowerSafe) (h : Moves sp s t) {p : PlanId} : Moves sp s (t.startRun i p) := by
  have k : Moves sp s ((t.modRecord i fun r =>
      { r with run := some { plan := p, phase := .issue, stepStart := t.now } }).enter i .running) :=
    h.modRecord.enter (by simp [SlotState.unpowered]) (.inr (.inl rfl))
  unfold State.startRun
  dsimp only
  split
  · exact runStep q k.startPatrol
  · exact runStep q k

theorem segmentDone (q : s.PowerSafe) (h : Moves sp s t) {a n : Nat} {c : Completion} :
    Moves sp s (t.segmentDone i a n c) := by
  have k := (h.accountSegment (i := i) (a := a) (n := n) (c := c)).modRun (i := i)
    (f := fun x => { x with cursor := x.cursor + n, retry := false })
  unfold State.segmentDone
  dsimp only
  split
  · exact k
  · split
    · exact endOfStep q k
    · split
      · exact k.enterHeld
      · exact k.proceedSweep

theorem stormDone (q : s.PowerSafe) (h : Moves sp s t) {c : Completion} : Moves sp s (t.stormDone i c) := by
  have k := h.accountStorm (i := i) (c := c)
  unfold State.stormDone
  dsimp only
  split
  · split
    · exact endOfStep q k
    · split
      · exact k.enterHeld
      · exact k.proceedStorm
  · exact k

theorem standbyDone (h : Moves sp s t) : Moves sp s (t.standbyDone i) := by
  unfold State.standbyDone
  dsimp only
  split
  · exact h.setPhase.cutPower.enterHeld
  · exact h.setPhase.cutPower

theorem segmentTimeout (q : s.PowerSafe) (h : Moves sp s t) : Moves sp s (t.segmentTimeout i) := by
  unfold State.segmentTimeout
  split
  · exact h
  · split
    · exact takeFault q h
    · dsimp only
      split
      · exact h.modRun.enterHeld
      · exact h.modRun.proceedSweep

theorem identified (q : s.PowerSafe) (h : Moves sp s t) {d : Identity} : Moves sp s (t.identified i d) := by
  unfold State.identified
  split
  · exact h
  · rename_i st
    have st : (t.record i).state = .identifying := by simpa using st
    have none : NoSpin t i := (h.powerSafe q).noSpin (by simp [st]) (by simp [st])
    have k := h.modRecord (i := i) (f := fun r => { r with identity := some d })
    dsimp only
    split
    · exact startRun q k.modRecord
    · exact (k.enter (by simp [SlotState.unpowered]) (.inr (.inr (((Moves.refl t).modRecord).noSpin none)))).startPatrol

theorem reidentified (q : s.PowerSafe) (h : Moves sp s t) {d : Identity} : Moves sp s (t.reidentified i d) :=
  endOfStep q h.modRecord

/-! ## The events of the drive lanes -/

theorem portReady (h : Moves sp s t) : Moves sp s (t.portReady i) := by
  unfold State.portReady
  split
  · exact h.modDpe.startPatrol.openPort
  · split
    · exact h
    · exact h.modDpe.startPatrol
  · exact h

theorem passReady (q : s.PowerSafe) (h : Moves sp s t) : Moves sp s (t.passReady i) := by
  unfold State.passReady
  split
  · rename_i st
    exact (h.enter (by simp [SlotState.unpowered])
      (.inr (.inr ((h.powerSafe q).noSpin (by simp [st]) (by simp [st]))))).offer
  · split
    · exact h.setPhase.offer
    · exact h
  · exact h

theorem pauReady (q : s.PowerSafe) (h : Moves sp s t) : Moves sp s (t.pauReady i) := by
  unfold State.pauReady
  dsimp only
  split
  · exact passReady q h.endSurge.modPau
  · exact h.endSurge

theorem readyReport (q : s.PowerSafe) (h : Moves sp s t) : Moves sp s (t.readyReport i) := by
  unfold State.readyReport; split
  · exact h
  · exact pauReady q h.portReady

theorem patrolMiss (q : s.PowerSafe) (h : Moves sp s t) {b : Bool} : Moves sp s (t.patrolMiss i b) := by
  unfold State.patrolMiss
  dsimp only
  split
  · exact takeFault q h.modDpe
  · split
    · exact h.modDpe.resetPort
    · exact h.modDpe

theorem setTemperature (h : Moves sp s t) {x : Int} : Moves sp s (t.setTemperature i x) := h.modRecord

theorem pollTaken (h : Moves sp s t) {x : Int} : Moves sp s (t.pollTaken i x) := by
  unfold State.pollTaken
  dsimp only
  split
  · exact h.setTemperature.modDpe.accountHot.temperatureToSq
  · exact h.setTemperature.modDpe.temperatureToSq

theorem patrolResult (q : s.PowerSafe) (h : Moves sp s t) {c : Completion} : Moves sp s (t.patrolResult i c) := by
  unfold State.patrolResult
  split
  · exact takeFault q h
  · split
    · exact patrolMiss q h
    · exact h.pollTaken

theorem directDone (h : Moves sp s t) {d : DirectOp} {c : Completion} : Moves sp s (t.directDone i d c) := by
  unfold State.directDone
  dsimp only
  split
  · exact h.setTemperature.replyDirect
  · exact h.replyDirect

theorem identifyResult (q : s.PowerSafe) (h : Moves sp s t) {c : Completion} {pass : State → State}
    (a : Moves sp s (pass t)) : Moves sp s (t.identifyResult i c pass) := by
  unfold State.identifyResult
  split
  · split
    · exact takeFault q h
    · exact a
  · exact takeFault q h

theorem segmentResult (q : s.PowerSafe) (h : Moves sp s t) {a n : Nat} {c : Completion} :
    Moves sp s (t.segmentResult i a n c) := by
  unfold State.segmentResult
  dsimp only
  split
  · exact segmentDone q h.modRun
  · exact takeFault q h.modRun

theorem handOver (q : s.PowerSafe) (h : Moves sp s t) {f : InFlight} {c : Completion} :
    Moves sp s (t.handOver i f c) := by
  unfold State.handOver
  split
  · exact patrolResult q h
  · exact h.directDone
  · exact identifyResult q h (identified q h)
  · exact endPowerDown q h
  · exact h
  · exact identifyResult q h (reidentified q h)
  · exact h.standbyDone
  · exact segmentResult q h
  · exact segmentResult q h
  · split
    · exact stormDone q h
    · exact takeFault q h
  · exact h

theorem complete (q : s.PowerSafe) (h : Moves sp s t) {c : Completion} : Moves sp s (t.complete i c) := by
  unfold State.complete
  split
  · exact h
  · split
    · exact (handOver q h.modDpe).openPort
    · exact h

theorem timeoutAction (q : s.PowerSafe) (h : Moves sp s t) {f : InFlight} : Moves sp s (t.timeoutAction i f) := by
  unfold State.timeoutAction
  split
  · exact patrolMiss q h
  · exact h.resetPort.replyDirect
  · exact endPowerDown q h
  · exact h.standbyDone
  · exact segmentTimeout q h.resetPort
  · exact segmentTimeout q h.resetPort
  · exact takeFault q h
  · exact takeFault q h

theorem timeOut (q : s.PowerSafe) (h : Moves sp s t) : Moves sp s (t.timeOut i) := by
  unfold State.timeOut
  split
  · exact h
  · split
    · exact timeoutAction q h.modDpe
    · exact h

theorem portLinkUp (h : Moves sp s t) : Moves sp s (t.portLinkUp i) := by
  unfold State.portLinkUp; split
  · exact h.modDpe.openPort
  · exact h

theorem portResetExpiry (q : s.PowerSafe) (h : Moves sp s t) : Moves sp s (t.portResetExpiry i) := by
  unfold State.portResetExpiry; split
  · exact takeFault q h.modDpe
  · exact h

theorem patrolExpiry (h : Moves sp s t) : Moves sp s (t.patrolExpiry i) := by
  unfold State.patrolExpiry; split
  · exact h.modDpe.openPort
  · exact h

/-! ## The events of the slot signals -/

theorem presenceChange (h : Moves sp s t) {l : Presence} : Moves sp s (t.presenceChange i l) := by
  unfold State.presenceChange; split
  · exact h
  · exact h.modSm

theorem insertion (q : s.PowerSafe) (h : Moves sp s t) : Moves sp s (t.insertion i) := by
  have k := h.modRecord (i := i) (f := fun r => { r with presence := .present })
  unfold State.insertion
  split
  · dsimp only
    split
    · rename_i st
      have m := k.powerSafe q
      exact ((k.enter (fun _ => m.column i (by rw [st]; rfl))
        (.inr (.inr (m.noSpin (by rw [st]; decide) (by rw [st]; decide))))).startDeclare).raiseTo
    · exact k
  · exact h

/-- R10: what a removal does before the slot becomes EMPTY leaves it without power and without an entry. -/
theorem removal (q : s.PowerSafe) (h : Moves sp s t) : Moves sp s (t.removal i) := by
  have m := h.powerSafe q
  have settled : ∀ {u : State}, Moves False t u → (t.record i).state.unpowered = true →
      (t.record i).state ≠ .spinWait → Moves sp s u → Moves sp s (u.becomeEmpty i) := fun a b c d =>
    have none := m.noSpin c (by intro e; simp [e, SlotState.unpowered] at b)
    d.becomeEmpty (a.off none (m.column i b)) (a.noSpin none)
  unfold State.removal
  split
  · unfold State.removalAction
    split
    · rename_i st
      exact settled ((Moves.refl t).pickDone) (by simp [st, SlotState.unpowered]) (by simp [st]) h.pickDone
    · rename_i st
      exact settled (((Moves.refl t).mispick).raiseSlot) (by simp [st, SlotState.unpowered]) (by simp [st]) (h.mispick.raiseSlot)
    · rename_i st; exact settled (.refl t) (by simp [st, SlotState.unpowered]) (by simp [st]) h
    · rename_i st; exact settled (.refl t) (by simp [st, SlotState.unpowered]) (by simp [st]) h
    all_goals
      have none := State.teardown_noSpin t i .aborted
      exact ((h.teardown.cutPower).raiseSlot).becomeEmpty
        (((Moves.refl _).raiseSlot).off ((Moves.refl _).cutPower.noSpin none) (State.cutPower_off none))
        ((((Moves.refl _).cutPower).raiseSlot).noSpin none)
  · exact h

theorem unloadExpiry (h : Moves sp s t) : Moves sp s (t.unloadExpiry i) := by
  unfold State.unloadExpiry; split
  · exact (h.modSm).raiseTo
  · exact h

/-- R11, R12: a LOADED slot takes a class and moves to SPIN_WAIT. -/
theorem declared (q : s.PowerSafe) (h : Moves True s t) (st : (t.record i).state = .loaded) {c : ClassId} :
    Moves True s ((t.modRecord i fun r => { r with cls := some c }).enterSpinWait i) := by
  have off := (h.powerSafe q).column i (by simp [st, SlotState.unpowered])
  have k : Moves True s (t.modRecord i fun r => { r with cls := some c }) :=
    h.tail (.slot _ _ _ rfl (.inr off) (.inl rfl) id)
  exact k.enterSpinWait (by simpa using off)

theorem declareExpiry (q : s.PowerSafe) (h : Moves True s t) : Moves True s (t.declareExpiry i) := by
  unfold State.declareExpiry; split
  · rename_i st
    have off := (h.powerSafe q).column i (by simp [st.1, SlotState.unpowered])
    have k : Moves True s (t.modRecord i fun r => { r with cls := some (r.cls.getD 0) }) :=
      h.tail (.slot _ _ _ rfl (.inr off) (.inl rfl) id)
    exact k.enterSpinWait (by simpa using off)
  · exact h

/-! ## The events of the PAU, the SQ's clocks and the GE -/

theorem conversion (q : s.PowerSafe) (h : Moves sp s t) {x : Int} : Moves sp s (t.conversion i x) := by
  unfold State.conversion
  split
  · exact h
  · dsimp only
    split
    · exact (takeFault q (h.modRecord.switchOff)).testHead
    · exact h.modRecord

theorem surgeExpiry (h : Moves sp s t) : Moves sp s (t.surgeExpiry i) := by
  unfold State.surgeExpiry; split
  · exact h.endSurge
  · exact h

theorem readyExpiry (q : s.PowerSafe) (h : Moves sp s t) : Moves sp s (t.readyExpiry i) := by
  unfold State.readyExpiry; split
  · exact takeFault q h.modPau
  · exact h

theorem headWaitExpiry (h : Moves sp s t) : Moves sp s t.headWaitExpiry := by
  unfold State.headWaitExpiry; split
  · exact raiseTo (h.tail (.drop _ _ _ _ (List.Sublist.refl _)))
  · exact h

theorem windowAged (h : Moves sp s t) : Moves sp s t.windowAged := by
  unfold State.windowAged; split
  · exact h
  · split
    · exact testHead (h.tail (.window _ _))
    · exact h

theorem soakReached (q : s.PowerSafe) (h : Moves sp s t) : Moves sp s (t.soakReached i) := by
  unfold State.soakReached; split
  · split
    · exact endOfStep q h
    · exact h
  · exact h

/-- R79: credit accrues only for a RUNNING slot. -/
theorem accrues_running {s : State} {i : SlotId} (h : s.accrues i = true) :
    (s.record i).state = .running := by
  unfold State.accrues at h
  split at h
  · assumption
  · cases h

theorem offReached (h : Moves True s t) : Moves True s (t.offReached i) := by
  unfold State.offReached; split
  · split
    · rename_i k
      exact h.setPhase.fileAdmission fun _ => ⟨trivial, .inr ((State.setPhase_record t i i _).2.2 ▸ accrues_running k.1)⟩
    · exact h
  · exact h

theorem stallExpiry (h : Moves sp s t) : Moves sp s (t.stallExpiry i) := by
  unfold State.stallExpiry; split
  · split
    · exact h.modRun
    · exact h.enterHeld
  · exact h

theorem handVerdict (q : s.PowerSafe) (h : Moves sp s t) {g : Grading} : Moves sp s (t.handVerdict g) := by
  have m := h.powerSafe q
  unfold State.handVerdict
  split
  · exact h
  · rename_i st
    simp only [not_or, ne_eq, Decidable.not_not] at st
    exact h.enterDone (m.column _ (by simp [st.2, SlotState.unpowered])) (m.noSpin (by simp [st.2]) (by simp [st.2]))

theorem gradingDone (q : s.PowerSafe) (h : Moves sp s t) : Moves sp s t.gradingDone := by
  unfold State.gradingDone; split
  · exact h
  · exact tryTake ((handVerdict q h).tail (.stores ..))

end Moves

end Sys2Proof.Machine
end

