-- ==== Sys2Proof/Laws/Requests.lean ====
section
/-! SUPPORT. One lemma for each request that changes no setting: from a power-safe state, taking it is a run of moves. -/

namespace Sys2Proof.Machine

variable {s : State} {i : SlotId} {p : Port}

/-- What a request taken leaves is a run of moves away. -/
def Taken.MovesFrom (t : Taken) (s : State) : Prop := Moves True s t.state

theorem State.refuse_moves {st : Status} {v : Bool} : (s.refuse st v).MovesFrom s := Moves.refl s

theorem State.malformed_moves : s.malformed.MovesFrom s := Moves.refl s

theorem State.noSuch_moves : s.noSuch.MovesFrom s := Moves.refl s

theorem Moves.ok {t : State} (h : Moves True s t) {b : List Word} : (t.ok b).MovesFrom s := h

theorem Moves.taken {t : State} (h : Moves True s t) {c : Bool} {b : List Word} : (t.taken c b).MovesFrom s := h

theorem State.onSlot_moves {w : Word} {act : SlotId → Taken} (h : ∀ i, (act i).MovesFrom s) :
    (s.onSlot w act).MovesFrom s := by
  unfold State.onSlot; split
  · exact h _
  · exact Moves.refl s

theorem State.onLot_moves {w : Word} {act : LotId → Taken} (h : ∀ n, (act n).MovesFrom s) :
    (s.onLot w act).MovesFrom s := by
  unfold State.onLot; split
  · exact h _
  · exact State.noSuch_moves

/-! ## AU: READ's clearing, SET_MASK -/

/-- R167, R168: causes leave a master's sets. -/
theorem Moves.fewerCauses {sp : Prop} {s t : State} (h : Moves sp s t) {f : Attention → Attention}
    (m : ∀ a, (f a).mask = a.mask) (n : ∀ a, (f a).notice = a.notice) (g : ∀ a, (f a).first = a.first)
    (e : ∀ a, a.isEmpty = true → (f a).isEmpty = true) : Moves sp s (t.modAtt p f) :=
  h.tail (.attention _ _ _ fun k =>
    k.of_fewer (by unfold Attention.MaskReceived; rw [m]; exact k.1) (n _) (g _) (e _))

theorem Moves.clearRead {sp : Prop} {s t : State} (h : Moves sp s t) {c : Collection} {a n : Nat} :
    Moves sp s (t.clearRead p c a n) := by
  unfold State.clearRead
  split
  · refine h.fewerCauses ?_ ?_ ?_ ?_
    iterate 3 intro _; rfl
    refine fun x hx => Attention.isEmpty_mono (a := x) ?_ (List.Subset.refl _) hx
    intro j
    simp only [Fin.getElem_fin, Vector.getElem_ofFn]
    split <;> simp
  · split
    · exact h
    · refine h.fewerCauses ?_ ?_ ?_ ?_
      iterate 3 intro _; rfl
      exact fun x hx => Attention.isEmpty_mono (a := x) (fun _ => List.Subset.refl _) (List.nil_subset _) hx
  · exact h

theorem State.readFrom_moves {c : Collection} {l : LotId} {a n : Nat} : (s.readFrom p c l a n).MovesFrom s :=
  (Moves.refl s).clearRead

theorem State.takeRead_moves {c a n : Word} : (s.takeRead p c a n).MovesFrom s := by
  unfold State.takeRead
  dsimp only
  split
  · exact State.malformed_moves
  · split
    · split
      · exact State.refuse_moves
      · exact State.readFrom_moves
    · exact State.noSuch_moves
  · split
    · exact State.noSuch_moves
    · exact State.readFrom_moves

theorem State.takeSetMask_moves {m : Word} : (s.takeSetMask p m).MovesFrom s := by
  have k : Moves True s (s.modAtt p fun a => a.setMask (m.setWidth 13 &&& receivedMask p)) := by
    refine (Moves.refl s).tail (.attention _ _ _ fun k => k.of_fewer (b := Attention.setMask _ _) ?_ rfl rfl
      (Attention.isEmpty_mono (fun j => ?_) fun x hx => (List.mem_filter.mp hx).1))
    · simp [Attention.MaskReceived, Attention.setMask, BitVec.and_assoc]
    · intro x hx
      simp only [Attention.setMask, Fin.getElem_fin, Vector.getElem_map] at hx
      exact (List.mem_filter.mp hx).1
  exact k

/-! ## SM -/

theorem State.takeDeclare_moves (q : s.PowerSafe) {a c : Word} : (s.takeDeclare a c).MovesFrom s := by
  refine State.onSlot_moves fun i => ?_
  split
  · exact State.noSuch_moves
  · split
    · rename_i st; exact (Moves.declared q (.refl s) st).ok
    · exact State.refuse_moves

theorem Moves.resetToLoaded {sp : Prop} {s t : State} (h : Moves sp s t) : Moves sp s (t.resetToLoaded i) := by
  have k : ∀ {sp : Prop} {s : State}, Moves sp s ((t.teardown i .aborted).cutPower i) →
      Moves sp s ((((((t.teardown i .aborted).cutPower i).leaveQueue i).clearTest i).modRecord i Record.forget).modSm i
        fun m => { m with carriedPlan := none, carriedVerdict := none }) := fun h => (h.leaveQueue.clearTest.modRecord).modSm
  have spin := State.teardown_noSpin t i .aborted
  have off := State.cutPower_off spin
  have spin := (Moves.refl (t.teardown i .aborted)).cutPower (i := i) |>.noSpin spin
  have m := k (sp := False) (.refl _)
  unfold State.resetToLoaded
  exact ((k h.teardown.cutPower).enter (fun _ => m.off spin off) (.inr (.inr (m.noSpin spin)))).startDeclare

theorem State.takeSlotReset_moves {a : Word} : (s.takeSlotReset a).MovesFrom s := by
  refine State.onSlot_moves fun i => ?_
  dsimp only
  split
  · exact State.refuse_moves
  · split
    · exact State.refuse_moves
    · exact (Moves.refl s).resetToLoaded.ok

/-! ## DPE -/

theorem State.acceptDirect_moves {tag : Word} {d : DirectOp} : Moves True s (s.acceptDirect tag i d) := by
  unfold State.acceptDirect
  exact (Moves.modDpe ((Moves.refl s).tail (.stores ..))).openPort

theorem State.takeDirectOp_moves {tag a b c d e f : Word} : (s.takeDirectOp tag a b c d e f).MovesFrom s := by
  refine State.onSlot_moves fun i => ?_
  split
  · exact State.malformed_moves
  · split
    · exact State.refuse_moves
    · split
      · exact State.refuse_moves
      · split
        · exact State.refuse_moves
        · exact State.acceptDirect_moves

/-! ## SQ -/

theorem State.takeLoadPlan_moves {a : Word} {es : List StepWords} : (s.takeLoadPlan a es).MovesFrom s := by
  unfold State.takeLoadPlan
  split
  · exact State.noSuch_moves
  · split
    · exact State.malformed_moves
    · split
      · exact State.refuse_moves
      · split
        · exact State.refuse_moves
        · exact (Moves.refl s).modPlan.taken

theorem State.startSlot_moves {sp : Prop} {s t : State} (q : s.PowerSafe) (h : Moves sp s t) {n : PlanId} {w : Word} :
    Moves sp s (t.startSlot n w).2 := by
  unfold State.startSlot
  split
  · exact h
  · split
    · dsimp only
      exact Moves.startRun q (h.clearTest.modRecord).usePlan
    · exact h

theorem State.startSlots_moves {sp : Prop} {s : State} (q : s.PowerSafe) {n : PlanId} (ws : List Word) :
    ∀ {t : State}, Moves sp s t → Moves sp s (State.startSlots n ws t).2 := by
  induction ws with
  | nil => exact id
  | cons w ws ih => exact fun h => ih (State.startSlot_moves q h)

theorem State.takeStart_moves (q : s.PowerSafe) {a : Word} {ws : List Word} : (s.takeStart a ws).MovesFrom s := by
  unfold State.takeStart
  split
  · exact State.malformed_moves
  · split
    · exact State.noSuch_moves
    · split
      · exact State.refuse_moves
      · exact (State.startSlots_moves q ws (.refl s)).ok

theorem State.takeHold_moves {a : Word} : (s.takeHold a).MovesFrom s := by
  refine State.onSlot_moves fun i => ?_
  split
  · exact (Moves.refl s).ok
  · split
    · exact (Moves.refl s).ok
    · split
      · exact (Moves.refl s).modRun.ok
      · exact (Moves.refl s).enterHeld.ok
  · exact State.refuse_moves

theorem Moves.dropHold {sp : Prop} {s t : State} (h : Moves sp s t) {x : HoldPending} : Moves sp s (t.dropHold i x) := by
  unfold State.dropHold
  dsimp only
  split
  · exact h.modRun.evaluateBand
  · exact h.modRun

/-! ### A RUNNING slot stays RUNNING while heads are tested -/

theorem State.state_modRun {j : SlotId} {f : RunContext → RunContext} :
    ((s.modRun j f).record i).state = (s.record i).state := by
  rw [State.record_modRun]; split <;> rfl

theorem State.state_openPort (s : State) (j : SlotId) : ((s.openPort j).record i).state = (s.record i).state := by
  unfold State.openPort
  dsimp only
  repeat' split
  all_goals simp
  split <;> rfl

theorem State.state_proceedStorm (s : State) (j : SlotId) :
    ((s.proceedStorm j).record i).state = (s.record i).state := by
  unfold State.proceedStorm
  split
  · dsimp only
    unfold State.proceedWith
    split
    · exact State.state_modRun
    · rw [State.offer, State.state_openPort, State.record_modDpe]; exact State.state_modRun
  · rfl

theorem State.newHead_slots (s : State) : s.newHead.slots = s.slots := by unfold State.newHead; split <;> rfl

theorem State.admit_running (e : AdmissionEntry) (h : (s.record i).state = .running) :
    ((s.admitEntry e).record i).state = .running := by
  unfold State.admitEntry
  split
  · by_cases eq : e.slot = i
    · subst eq
      unfold State.admitSpinup
      simp only [h]
      rw [(State.setPhase_record _ _ _ _).2.2, State.record_powerOnSlot, if_pos rfl]; exact h
    · rw [((State.record_admitSpinup s e.slot i).2.1 eq).2]; exact h
  · unfold State.admitSeek
    split
    · rw [State.state_proceedStorm, State.record_setLoad]; split <;> exact h
    · exact h

theorem State.testHeads_running (n : Nat) :
    ∀ {s : State}, (s.record i).state = .running → ((State.testHeads n s).record i).state = .running := by
  induction n with
  | zero => exact id
  | succ n ih =>
    intro s h
    unfold State.testHeads
    split
    · exact h
    · split
      · refine ih ?_
        rw [State.record_congr (State.newHead_slots _)]
        exact State.admit_running _ h
      · exact h

theorem State.cutPower_running (h : (s.record i).state = .running) : ((s.cutPower i).record i).state = .running := by
  unfold State.cutPower
  split
  · refine State.testHeads_running _ ?_
    simp [State.switchOff, State.record_portOff, State.record_setLoad, h]
  · exact h

/-- R93: a RUNNING slot's POWER_CYCLE step goes on. -/
theorem Moves.resumeCycle {s t : State} (h : Moves True s t) (st : (t.record i).state = .running) {ph : StepPhase} :
    Moves True s (t.resumeCycle i ph) := by
  have filed : ∀ {u : State}, Moves True s u → (u.record i).state = .running →
      Moves True s ((u.setPhase i .waitSpinup).fileAdmission i .spinup) := fun {u} h k =>
    h.setPhase.fileAdmission fun _ => ⟨trivial, .inr ((State.setPhase_record u i i _).2.2 ▸ k)⟩
  unfold State.resumeCycle
  dsimp only
  split
  · exact h
  · exact filed h st
  · split
    · exact h.setPhase.offer
    · exact filed h.cutPower (State.cutPower_running st)
  · exact h.setPhase.offer
  · exact h.firstAction

theorem Moves.resumeStep {s t : State} (q : s.PowerSafe) (h : Moves True s t) (st : (t.record i).state = .running) :
    Moves True s (t.resumeStep i) := by
  unfold State.resumeStep
  split
  · split
    · exact Moves.runStep q h
    · split
      · exact Moves.endOfStep q h
      · exact h.firstAction
    · exact h.resumeCycle st
    · exact h.firstAction
  · exact h

theorem Moves.resumeHeld {s t : State} (q : s.PowerSafe) (h : Moves True s t) : Moves True s (t.resumeHeld i) := by
  unfold State.resumeHeld
  exact Moves.resumeStep q ((h.enter (by simp [SlotState.unpowered]) (.inr (.inl rfl))).evaluateBand)
    (State.state_modRun.trans (State.state_enter t i .running))

theorem State.takeResume_moves (q : s.PowerSafe) {a : Word} : (s.takeResume a).MovesFrom s := by
  refine State.onSlot_moves fun i => ?_
  split
  · split
    · exact (Moves.refl s).dropHold.ok
    · exact State.refuse_moves
  · exact (Moves.resumeHeld q (.refl s)).ok
  · exact State.refuse_moves

theorem State.takeAbort_moves (q : s.PowerSafe) {a : Word} : (s.takeAbort a).MovesFrom s := by
  refine State.onSlot_moves fun i => ?_
  have spin := State.teardown_noSpin s i .aborted
  have abortRun : Moves True s (s.abortRun i) := by
    unfold State.abortRun
    dsimp only
    split
    · exact Moves.powerDown q (Moves.refl s).teardown.modSm (((Moves.refl _).modSm).noSpin spin)
    · rename_i k
      exact (Moves.refl s).teardown.enterDone (by simpa [Record.powered] using k) spin
  split
  · rename_i st
    have none := q.noSpin (i := i) (by simp [st]) (by simp [st])
    refine Moves.ok ?_
    unfold State.abortGrading
    exact (Moves.refl s).teardown.enterDone
      ((Moves.refl s).teardown.off none (q.column i (by simp [st, SlotState.unpowered]))) spin
  · exact abortRun.ok
  · exact abortRun.ok
  · exact State.refuse_moves

theorem State.takeRetest_moves (q : s.PowerSafe) {a b : Word} : (s.takeRetest a b).MovesFrom s := by
  refine State.onSlot_moves fun i => ?_
  split
  · exact State.noSuch_moves
  · split
    · exact State.refuse_moves
    · split
      · exact State.refuse_moves
      · split
        · exact State.refuse_moves
        · rename_i n _ _ st _
          have st : (s.record i).state = .done := by simpa using st
          have none := q.noSpin (i := i) (by simp [st]) (by simp [st])
          have off := q.column i (by simp [st, SlotState.unpowered])
          have k : ∀ {sp : Prop}, Moves sp s ((((s.leaveQueue i).clearTest i).modRecord i fun r =>
              { r with verdict := Option.none, notifyCode := Option.none, startPlan := some n }).usePlan n) :=
            ((Moves.refl s).leaveQueue.clearTest.modRecord).usePlan
          exact (k.enterSpinWait (k.off none off)).ok

/-! ## BLU -/

theorem Moves.openLot {sp : Prop} {s t : State} (h : Moves sp s t) {n : LotId} {b : Bin} {c : Nat} {l : Chars 16} :
    Moves sp s (t.openLot n b c l) := by
  unfold State.openLot
  exact Moves.fillLot (h.modLot.tail (.stores ..))

theorem State.takeOpenLot_moves {a b c d e f : Word} : (s.takeOpenLot a b c d e f).MovesFrom s := by
  unfold State.takeOpenLot
  split
  · exact State.malformed_moves
  · split
    · exact State.refuse_moves
    · exact (Moves.refl s).openLot.taken

theorem State.takeCloseLot_moves {a : Word} : (s.takeCloseLot a).MovesFrom s := by
  refine State.onLot_moves fun n => ?_
  split
  · refine Moves.ok ?_
    unfold State.closeOpenLot
    split
    · exact (Moves.refl s).freeLot
    · exact (Moves.refl s).modLot.testComplete
  · exact State.refuse_moves

theorem State.takeReleaseLot_moves {a : Word} : (s.takeReleaseLot a).MovesFrom s := by
  refine State.onLot_moves fun n => ?_
  split
  · exact (Moves.refl s).freeLot.ok
  · exact State.refuse_moves

theorem State.takeNextPick_moves (q : s.PowerSafe) {a : Word} : (s.takeNextPick a).MovesFrom s := by
  refine State.onLot_moves fun n => ?_
  split
  iterate 2 exact State.refuse_moves
  all_goals
    split
    · exact (Moves.doneToUnloading q (Moves.refl s).setEntries).ok
    · exact (Moves.refl s).ok

theorem State.takeCancelPick_moves (q : s.PowerSafe) {a : Word} : (s.takeCancelPick a).MovesFrom s := by
  refine State.onSlot_moves fun i => ?_
  split
  · rename_i st
    have spin := q.noSpin (i := i) (by simp [st]) (by simp [st])
    have off := q.column i (by simp [st, SlotState.unpowered])
    refine Moves.ok ?_
    unfold State.cancelPick
    split
    · exact (Moves.refl s).markEntry.enter (fun _ => (Moves.refl s).markEntry.off spin off)
        (.inr (.inr ((Moves.refl s).markEntry.noSpin spin)))
    · split
      · exact ((Moves.refl s).enter (fun _ => off) (.inr (.inr spin))).placeSlot
      · exact (Moves.refl s).enterDone off spin
  · exact State.refuse_moves

theorem Moves.unloadDone {sp : Prop} {s t : State} (q : s.PowerSafe) (h : Moves sp s t) : Moves sp s (t.unloadDone i) :=
  Moves.doneToUnloading q h.leaveQueue.setPlacement

theorem Moves.forceUnload {sp : Prop} {s t : State} (q : s.PowerSafe) (h : Moves sp s t) :
    Moves sp s (t.forceUnload i) := by
  have spin := ((Moves.refl (t.teardown i .aborted)).modSm (i := i)
    (f := fun m => { m with carriedPlan := none, carriedVerdict := none })).noSpin (State.teardown_noSpin t i .aborted)
  unfold State.forceUnload
  dsimp only
  split
  · exact Moves.powerDown q h.teardown.modSm spin
  · rename_i k
    exact h.teardown.modSm.enterUnloading (by simpa [Record.powered] using k) spin

theorem State.takeUnload_moves (q : s.PowerSafe) {a b : Word} : (s.takeUnload a b).MovesFrom s := by
  refine State.onSlot_moves fun i => ?_
  split
  · split
    · exact State.refuse_moves
    · exact (Moves.unloadDone q (.refl s)).ok
  iterate 5 exact (Moves.forceUnload q (.refl s)).ok
  iterate 4
    split
    · exact (Moves.forceUnload q (.refl s)).ok
    · exact State.refuse_moves
  all_goals exact State.refuse_moves

theorem Moves.withdrawFrom {sp : Prop} {s t : State} (h : Moves sp s t) {n : LotId} :
    Moves sp s (t.withdrawFrom n i) := by
  unfold State.withdrawFrom
  dsimp only
  split
  · exact h.setEntries.setPlacement.setLotState.fillLot
  · split
    · exact h.setEntries.setPlacement.modLot.freeLot
    · exact h.setEntries.setPlacement.modLot.testComplete
  all_goals exact h.setEntries.setPlacement

theorem State.takeWithdraw_moves {a : Word} : (s.takeWithdraw a).MovesFrom s := by
  refine State.onSlot_moves fun i => ?_
  split
  · exact State.refuse_moves
  · split
    · exact State.refuse_moves
    · exact (Moves.refl s).leaveQueue.ok
    · exact (Moves.refl s).withdrawFrom.ok

theorem State.takeRequeue_moves {a : Word} : (s.takeRequeue a).MovesFrom s := by
  refine State.onSlot_moves fun i => ?_
  split
  · exact (Moves.refl s).placeSlot.ok
  · exact State.refuse_moves

end Sys2Proof.Machine
end

