-- ==== Sys2Proof/Laws/Within.lean ====
section
/-! SUPPORT. What holds inside an event: the invariants of Safety.lean with the notice test still to come. Every request taken,
and a rack reset, keep it, and the end of an event settles the attention (R170). -/

namespace Sys2Proof.Machine

variable {sp : Prop} {s t : State} {i : SlotId} {p : Port}

/-- The invariants as they hold within an event. -/
structure State.Within (s : State) : Prop where
  power    : s.PowerSafe
  trays    : s.TraysSound
  tame     : s.Tame
  logs     : s.LogsBounded
  settings : s.SettingsInRange

theorem SameSetup.settings (h : SameSetup s t) (k : s.SettingsInRange) : t.SettingsInRange := by
  unfold State.SettingsInRange; rw [h.classTable, h.line, h.timing, h.grade]; exact k

theorem Moves.within (h : Moves sp s t) (k : s.Within) : t.Within :=
  ⟨h.powerSafe k.power, h.trays k.trays, h.tame k.tame, h.logs k.logs, h.same.settings k.settings⟩

/-- What a state needs to be within an event like `s`, its settings apart. -/
theorem State.Within.congr (k : s.Within) (hs : t.slots = s.slots) (hc : t.classTable = s.classTable) (hl : t.load = s.load)
    (ha : t.admission = s.admission) (ht : t.trays = s.trays) (a : t.attA = s.attA) (b : t.attB = s.attB)
    (r : t.SettingsInRange) : t.Within where
  power := State.powerSafe_congr (State.record_congr hs) hc hl ha k.power
  trays := by unfold State.TraysSound; rw [ht]; exact k.trays
  tame q := by rw [State.att_congr a b]; exact k.tame q
  logs j := by rw [State.slot_congr hs]; exact k.logs j
  settings := r

/-! ## The settings requests -/

theorem clampNat_range (lo hi x : Nat) (h : lo ≤ hi) : lo ≤ clampNat lo hi x ∧ clampNat lo hi x ≤ hi := by
  unfold clampNat; omega

theorem newSetting_range {m w : Word} {k lo hi old : Nat} (h : lo ≤ hi) (a : lo ≤ old) (b : old ≤ hi) :
    lo ≤ newSetting m k lo hi old w ∧ newSetting m k lo hi old w ≤ hi := by
  unfold newSetting; split
  · exact clampNat_range _ _ _ h
  · exact ⟨a, b⟩

theorem LineSettings.update_range {l : LineSettings} (h : l.InRange) {m a b c d e : Word} :
    (l.update m a b c d e).InRange := by
  obtain ⟨h1, h2, h3, h4, h5, h6, h7, h8, h9⟩ := h
  have a := newSetting_range (m := m) (w := a) (k := 0) (by decide) (Nat.zero_le _) h1
  have b := newSetting_range (m := m) (w := b) (k := 1) (by decide) h2 h3
  have c := newSetting_range (m := m) (w := c) (k := 2) (by decide) h4 h5
  have d := newSetting_range (m := m) (w := d) (k := 3) (by decide) h6 h7
  have e := newSetting_range (m := m) (w := e) (k := 4) (by decide) h8 h9
  exact ⟨a.2, b.1, b.2, c.1, c.2, d.1, d.2, e.1, e.2⟩

theorem TimingSettings.update_range {l : TimingSettings} (h : l.InRange) {m a b c : Word} :
    (l.update m a b c).InRange := by
  obtain ⟨h1, h2, h3, h4, h5, h6⟩ := h
  have a := newSetting_range (m := m) (w := a) (k := 0) (by decide) h1 h2
  have c := newSetting_range (m := m) (w := c) (k := 2) (by decide) h5 h6
  refine ⟨a.1, a.2, ?_, ?_, c.1, c.2⟩ <;> (simp only [TimingSettings.update]; split <;> (try simp only [clampInt]) <;> omega)

theorem ClassEntry.clamp_range {e : ClassEntry} (a : e.capacity < 2 ^ 48) (b : e.minRate < 2 ^ 32) : e.clamp.InRange := by
  unfold ClassEntry.InRange ClassEntry.clamp clampNat
  dsimp only
  and_intros <;> omega

theorem bits_lt (w : Word) (lo n : Nat) : bits w lo n < 2 ^ n := Nat.mod_lt _ (Nat.two_pow_pos n)

theorem read48_lt (a b : Word) : read48 a b < 2 ^ 48 := by
  have h := bits_lt a 0 16
  have k := b.isLt
  unfold read48
  omega

theorem readClass_range (a b c d e f : Word) : (readClass a b c d e f).clamp.InRange :=
  ClassEntry.clamp_range (read48_lt d e) f.isLt

/-- R124: a table taken lies in its ranges, its thresholds ascending. -/
theorem GradeTable.next_range {g : GradeTable} {a b c d e : Word}
    (h : ascending (g.next (readTable a b c d e)).thresholds = true) : (g.next (readTable a b c d e)).InRange := by
  have lim := fun (w : Word) lo => Nat.le_of_lt_succ (bits_lt w lo 16)
  have k := clampNat_range 1 5 (bits a 0 8) (by decide)
  have wh := clampNat_range 1 63 (bits a 24 8) (by decide)
  unfold GradeTable.InRange
  simp only [GradeTable.next, GradeTable.clamp, readTable, if_true] at h ⊢
  refine ⟨wh.1, wh.2, Nat.min_le_right _ _, Nat.min_le_right _ _, lim _ _, Nat.min_le_right _ _, lim _ _, k.1, k.2, ?_,
    fun x hx => ?_, h⟩
  · simp only [List.length_take, List.length_cons, List.length_nil]; omega
  · have := List.mem_of_mem_take hx
    simp only [List.mem_cons, List.not_mem_nil, or_false] at this
    rcases this with rfl | rfl | rfl | rfl | rfl <;> exact lim _ _

theorem State.takeSetTiming_within (h : s.Within) {a b c d : Word} : (s.takeSetTiming a b c d).state.Within :=
  h.congr rfl rfl rfl rfl rfl rfl rfl ⟨h.settings.1, h.settings.2.1, TimingSettings.update_range h.settings.2.2.1, h.settings.2.2.2⟩

theorem State.takeSetGradeTable_within (h : s.Within) {a b c d e : Word} :
    (s.takeSetGradeTable (readTable a b c d e)).state.Within := by
  unfold State.takeSetGradeTable
  split
  · exact h
  · dsimp only
    split
    · exact h
    · rename_i k
      refine ((Moves.refl _).tryTake (sp := False)).within (h.congr rfl rfl rfl rfl rfl rfl rfl
        ⟨h.settings.1, h.settings.2.1, h.settings.2.2.1, GradeTable.next_range ?_⟩)
      simpa using k

theorem State.takeSetLine_within (h : s.Within) {m a b c d e : Word} : (s.takeSetLine m a b c d e).state.Within := by
  have k : State.Within { s with line := s.line.update m a b c d e } := h.congr rfl rfl rfl rfl rfl rfl rfl
    ⟨h.settings.1, LineSettings.update_range h.settings.2.1, h.settings.2.2⟩
  unfold State.takeSetLine
  have win : ∀ {u : State}, u.Within → (if carried m 1 = true then { u with window := u.youngWindow } else u).Within := by
    intro u hu; split
    · exact (Moves.one (.window (spin := False) u _)).within hu
    · exact hu
  have budget : ∀ {u : State} {c : Prop} [Decidable c], u.Within →
      (if c then u.raiseTo .b (.rack .overBudget) else u).Within := by
    intro u c _ hu; split
    · exact ((Moves.refl u).raiseTo (sp := False)).within hu
    · exact hu
  have heads : ∀ {u : State} {c : Prop} [Decidable c], u.Within → (if c then u.testHead else u).Within := by
    intro u c _ hu; split
    · exact ((Moves.refl u).testHead (sp := False)).within hu
    · exact hu
  exact heads (budget (win k))

theorem State.takeSetClass_within (h : s.Within) {n : Word} {a b c d x f : Word} :
    (s.takeSetClass n (readClass a b c d x f)).state.Within := by
  unfold State.takeSetClass
  split
  · exact h
  · rename_i k _
    split
    · exact h
    · rename_i off
      have off : ∀ j, (s.record j).cls = some k → (s.record j).phase = .off := by
        intro j hj
        have := off
        simp only [State.classPowered, List.any_eq_true, Bool.and_eq_true, not_exists, not_and] at this
        simpa [Record.powered] using this j (mem_allSlots j) (by simpa using hj)
      have w : State.Within { s with classTable := s.classTable.set k (readClass a b c d x f).clamp } := by
        refine ⟨⟨State.balanced_congr (s := s) rfl (fun j => ?_) h.power.load, h.power.column, h.power.spinup, h.power.single⟩,
          h.trays, h.tame, h.logs, ⟨fun j => ?_, h.settings.2⟩⟩
        · by_cases e : (s.record j).cls = some k
          · rw [State.phaseLoad_off (off j e), State.phaseLoad_off]; exact off j e
          · unfold State.phaseLoad State.loadIn State.classEntry
            have same : (State.record { s with classTable := s.classTable.set k (readClass a b c d x f).clamp } j) = s.record j := rfl
            rw [same]
            split
            · rename_i m hm
              have : k ≠ m := fun y => e (y ▸ hm)
              simp [Fin.val_inj, this]
            · rfl
        · by_cases e : k = j
          · subst e; simpa using readClass_range ..
          · have := h.settings.1 j; simpa [Vector.getElem_set, Fin.val_inj, e] using this
      dsimp only
      split
      · exact ((Moves.refl _).testHead (sp := False)).within w
      · exact w

/-! ## Rack reset -/

namespace Moves

theorem rackResetPort (h : Moves sp s t) : Moves sp s (t.rackResetPort i) := h.modDpe.startPatrol

theorem holdForReset (h : Moves sp s t) : Moves sp s (t.holdForReset i) := by
  have spin : NoSpin { t with admission := t.admission.filter fun e => e.slot != i } i := fun e he _ => by
    simpa using (List.mem_filter.mp he).2
  exact ((h.drop (q := t.admission.filter fun e => e.slot != i) List.filter_sublist).markHeld spin (c := .reset)).modPau

theorem rackResetSlot (h : Moves sp s t) : Moves sp s (t.rackResetSlot i) := by
  unfold State.rackResetSlot
  split
  · exact h.startDeclare
  · exact h.modPau
  · exact h.modDpe
  · exact h.holdForReset
  · exact h.modDpe
  · exact h.startUnload
  all_goals exact h

/-- An operation done for a list of slots. -/
theorem fold {f : State → SlotId → State} (k : ∀ {u : State} {j : SlotId}, Moves sp s u → Moves sp s (f u j))
    (l : List SlotId) : ∀ {t : State}, Moves sp s t → Moves sp s (l.foldl f t) := by
  induction l with
  | nil => exact id
  | cons a l ih => exact fun h => ih (k h)

theorem testNewHead (h : Moves sp s t) {e : Option AdmissionEntry} : Moves sp s (t.testNewHead e) := by
  unfold State.testNewHead; split
  · exact h
  · exact h.newHead.testHead

theorem releaseHeld (h : Moves sp s t) {l : List SlotId} {e : Option AdmissionEntry} : Moves sp s (t.releaseHeld l e) :=
  fold (fun k => k.releaseSeek) l h.testNewHead

theorem rebuildGrading (h : Moves sp s t) : Moves sp s t.rebuildGrading := h.tail (.stores ..)

theorem regrade (h : Moves sp s t) : Moves sp s t.regrade := by
  unfold State.regrade; split
  · exact h
  · exact h.noteUnset.tryTake

theorem placeResetDone (h : Moves sp s t) {o : Origin} : Moves sp s (t.placeResetDone o p) := by
  unfold State.placeResetDone; split
  · exact h.pushOut
  · exact h

end Moves

theorem State.rebuildAdmission_within (h : s.Within) : s.rebuildAdmission.Within := by
  refine ((Moves.refl _).newHead.testHead (sp := False)).within ⟨⟨?_, h.power.column, ?_, ?_⟩, h.trays, h.tame, h.logs, h.settings⟩
  · exact State.balanced_congr (s := s) rfl (fun _ => rfl) h.power.load
  · intro e he _
    obtain ⟨j, hj, rfl⟩ := List.mem_map.mp he
    have := (List.mem_filter.mp hj).2
    simp only [State.keepsEntry, Bool.and_eq_true, beq_iff_eq] at this
    exact .inl this.1
  · simp only [List.map_map]
    show ((allSlots.filter s.keepsEntry).map fun j => j).Nodup
    rw [List.map_id']; exact List.filter_sublist.nodup allSlots_nodup

/-- A rack reset keeps what holds within an event (R187). -/
theorem State.rackReset_within (h : s.Within) (o : Origin) : (s.rackReset o).Within := by
  have a : (allSlots.foldl State.rackResetSlot (allSlots.foldl State.rackResetPort s)).Within :=
    (Moves.fold (fun h => h.rackResetSlot) _ (Moves.fold (sp := False) (fun h => h.rackResetPort) _ (.refl s))).within h
  unfold State.rackReset
  dsimp only
  generalize allSlots.foldl State.rackResetSlot (allSlots.foldl State.rackResetPort s) = u at a ⊢
  have b : State.Within { u with trays := Vector.replicate 3 {} } :=
    ⟨State.powerSafe_congr (s := u) (fun _ => rfl) rfl rfl rfl a.power, fun n => by simp [Tray.sound_empty],
      a.tame, a.logs, a.settings⟩
  have c := State.rebuildAdmission_within (((Moves.refl _).releaseHeld (l := s.runningSlots) (e := s.admission.head?)
    |>.rebuildGrading (sp := False)).within b)
  generalize State.rebuildAdmission _ = v at c ⊢
  have d : ((v.resetLinks o).resetAttention).Within :=
    ⟨State.powerSafe_congr (s := v) (fun _ => rfl) rfl rfl rfl c.power, c.trays,
      fun q => by
        have empty : Attention.isEmpty { mask := fullMaskA } = true ∧ Attention.isEmpty { mask := fullMaskB } = true := by decide +kernel
        cases q
        · exact ⟨BitVec.and_self, fun _ e => by rw [show (((v.resetLinks o).resetAttention).att .a).isEmpty = true from empty.1] at e; cases e⟩
        · exact ⟨BitVec.and_self, fun _ e => by rw [show (((v.resetLinks o).resetAttention).att .b).isEmpty = true from empty.2] at e; cases e⟩,
      c.logs, c.settings⟩
  exact ((Moves.fold (sp := False) (fun h => h.raiseTo) _ (.refl _)).regrade).within d

/-! ## Every request -/

/-- Every request taken, whatever its body, keeps what holds within an event. -/
theorem State.takeRequest_within (h : s.Within) (k : ReqKind) (tag : Word) (body : List Word) :
    (s.takeRequest p k tag body).state.Within := by
  have q := h.power
  have m : ∀ {x : Taken}, x.MovesFrom s → x.state.Within := fun k => Moves.within k h
  unfold State.takeRequest
  cases k with
  | read =>
    dsimp only; split
    · exact m State.takeRead_moves
    · exact h
  | setMask =>
    dsimp only; split
    · exact m State.takeSetMask_moves
    · exact h
  | rackReset =>
    dsimp only; split
    · exact ((Moves.refl _).placeResetDone.placeResetDone (sp := False)).within (State.rackReset_within h _)
    · exact h
  | loadPlan =>
    dsimp only; split
    · split
      · exact m State.takeLoadPlan_moves
      · exact h
    · exact h
  | start =>
    dsimp only; split
    · exact m (State.takeStart_moves q)
    · exact h
  | hold =>
    dsimp only; split
    · exact m State.takeHold_moves
    · exact h
  | resume =>
    dsimp only; split
    · exact m (State.takeResume_moves q)
    · exact h
  | abort =>
    dsimp only; split
    · exact m (State.takeAbort_moves q)
    · exact h
  | retest =>
    dsimp only; split
    · exact m (State.takeRetest_moves q)
    · exact h
  | slotReset =>
    dsimp only; split
    · exact m State.takeSlotReset_moves
    · exact h
  | directOp =>
    dsimp only; split
    · exact m State.takeDirectOp_moves
    · exact h
  | setTiming =>
    dsimp only; split
    · exact State.takeSetTiming_within h
    · exact h
  | setClass =>
    dsimp only; split
    · exact State.takeSetClass_within h
    · exact h
  | setGradeTable =>
    dsimp only; split
    · exact State.takeSetGradeTable_within h
    · exact h
  | declare =>
    dsimp only; split
    · exact m (State.takeDeclare_moves q)
    · exact h
  | setLine =>
    dsimp only; split
    · exact State.takeSetLine_within h
    · exact h
  | openLot =>
    dsimp only; split
    · exact m State.takeOpenLot_moves
    · exact h
  | closeLot =>
    dsimp only; split
    · exact m State.takeCloseLot_moves
    · exact h
  | nextPick =>
    dsimp only; split
    · exact m (State.takeNextPick_moves q)
    · exact h
  | cancelPick =>
    dsimp only; split
    · exact m (State.takeCancelPick_moves q)
    · exact h
  | unload =>
    dsimp only; split
    · exact m (State.takeUnload_moves q)
    · exact h
  | withdraw =>
    dsimp only; split
    · exact m State.takeWithdraw_moves
    · exact h
  | requeue =>
    dsimp only; split
    · exact m State.takeRequeue_moves
    · exact h
  | releaseLot =>
    dsimp only; split
    · exact m State.takeReleaseLot_moves
    · exact h

/-! ## The end of an event -/

theorem State.placeNotice_att (s : State) (p q : Port) (n : Notice) : (s.placeNotice p n).att q = s.att q := by
  unfold State.placeNotice
  split
  · simp
  · split
    · simp [State.pushOut]
    · rfl

/-- R170 for one master, on its attention alone. -/
def Attention.tested (a : Attention) : Attention :=
  { a with first := none
           notice := match a.notice, a.isEmpty, a.first with
             | .clear, false, some _ => .sent
             | .sent, true, _ => .clear
             | n, _, _ => n }

theorem State.testNotice_att (s : State) (p q : Port) :
    (s.testNotice p).att q = if p = q then (s.att q).tested else s.att q := by
  unfold State.testNotice Attention.tested
  by_cases e : p = q
  · subst e
    simp only [if_true]
    split <;> simp_all [State.placeNotice_att]
  · rw [if_neg e]
    dsimp only
    split <;> simp [State.att_modAtt, State.placeNotice_att, e]

/-- R170: the test settles a tame attention. -/
theorem Attention.Tame.tested {a : Attention} (h : a.Tame p) : a.tested.Settled ∧ a.tested.MaskReceived p := by
  refine ⟨⟨rfl, ?_⟩, h.1⟩
  have same : a.tested.isEmpty = a.isEmpty := rfl
  rw [same]
  have k := h.2
  unfold Attention.tested
  cases hn : a.notice <;> cases he : a.isEmpty <;> cases hf : a.first <;> simp_all

/-- The notice test changes nothing but its master's attention and its port's packets. -/
theorem State.testNotice_rest (s : State) (p : Port) :
    SameSetup s (s.testNotice p) ∧ (s.testNotice p).slots = s.slots ∧ (s.testNotice p).load = s.load ∧
      (s.testNotice p).admission = s.admission ∧ (s.testNotice p).trays = s.trays ∧
      ∀ q, (s.link q).Gains ((s.testNotice p).link q) := by
  have place : ∀ (u : State) (n : Notice), SameSetup u (u.placeNotice p n) ∧ (u.placeNotice p n).slots = u.slots ∧
      (u.placeNotice p n).load = u.load ∧ (u.placeNotice p n).admission = u.admission ∧
      (u.placeNotice p n).trays = u.trays ∧ ∀ q, (u.link q).Gains ((u.placeNotice p n).link q) := fun u n => by
    refine ⟨((Moves.refl u).placeNotice (sp := False)).same, ?_, ?_, ?_, ?_, ((Moves.refl u).placeNotice (sp := False)).links⟩ <;>
      (unfold State.placeNotice; split <;> try split) <;> first | rfl | simp [State.pushOut]
  have att : ∀ (u : State) (f : Attention → Attention), SameSetup u (u.modAtt p f) ∧ (u.modAtt p f).slots = u.slots ∧
      (u.modAtt p f).load = u.load ∧ (u.modAtt p f).admission = u.admission ∧ (u.modAtt p f).trays = u.trays ∧
      ∀ q, (u.link q).Gains ((u.modAtt p f).link q) := fun u f =>
    ⟨by constructor <;> simp, by simp, by simp, by simp, by simp, fun q => by rw [State.link_modAtt]; exact .refl _⟩
  have trans : ∀ {u v w : State}, (SameSetup u v ∧ v.slots = u.slots ∧ v.load = u.load ∧ v.admission = u.admission ∧
      v.trays = u.trays ∧ ∀ q, (u.link q).Gains (v.link q)) → (SameSetup v w ∧ w.slots = v.slots ∧ w.load = v.load ∧
      w.admission = v.admission ∧ w.trays = v.trays ∧ ∀ q, (v.link q).Gains (w.link q)) → (SameSetup u w ∧
      w.slots = u.slots ∧ w.load = u.load ∧ w.admission = u.admission ∧ w.trays = u.trays ∧
      ∀ q, (u.link q).Gains (w.link q)) := fun a b =>
    ⟨a.1.trans b.1, b.2.1.trans a.2.1, b.2.2.1.trans a.2.2.1, b.2.2.2.1.trans a.2.2.2.1, b.2.2.2.2.1.trans a.2.2.2.2.1,
      fun q => (a.2.2.2.2.2 q).trans (b.2.2.2.2.2 q)⟩
  unfold State.testNotice
  dsimp only
  split
  · exact trans (att _ _) (trans (place _ _) (att _ _))
  · exact trans (att _ _) (att _ _)
  · exact att _ _

/-- The end of an event: the attention is settled, the rest holds as it did, and the ports gain notices only. -/
theorem State.endEvent_settles (h : s.Within) :
    s.endEvent.PowerSafe ∧ s.endEvent.TraysSound ∧ s.endEvent.AttentionSafe ∧ s.endEvent.LogsBounded ∧
      s.endEvent.SettingsInRange ∧ SameSetup s s.endEvent ∧ ∀ q, (s.link q).Gains (s.endEvent.link q) := by
  obtain ⟨a1, a2, a3, a4, a5, a6⟩ := State.testNotice_rest s .a
  obtain ⟨b1, b2, b3, b4, b5, b6⟩ := State.testNotice_rest (s.testNotice .a) .b
  have setup := a1.trans b1
  have slots := b2.trans a2
  refine ⟨State.powerSafe_congr (State.record_congr slots) setup.classTable (b3.trans a3) (b4.trans a4) h.power, ?_, ?_, ?_,
    setup.settings h.settings, setup, fun q => (a6 q).trans (b6 q)⟩
  · intro n
    have := h.trays n
    unfold State.endEvent; rw [b5, a5]; exact this
  · intro q
    unfold State.endEvent
    have := (h.tame q).tested
    cases q <;> simpa [State.testNotice_att] using this
  · intro j
    have := h.logs j
    unfold State.endEvent; rw [State.slot_congr slots]; exact this

/-- Between events an attention is tame. -/
theorem State.AttentionSafe.tame (h : s.AttentionSafe) : s.Tame := fun p =>
  ⟨(h p).2, fun hn he => by rw [((h p).1.2).mpr he] at hn; cases hn⟩

end Sys2Proof.Machine
end

