-- ==== Sys2Proof/Laws/Links.lean ====
section
/-! SUPPORT. The LI: what the end of an event, a request taken, dispatch, a packet received and one sent do to the invariants, and
what a request does when its port takes it at once. -/

namespace Sys2Proof.Machine

variable {s t : State} {p : Port}

theorem State.Invariant.within (h : s.Invariant) : s.Within :=
  ⟨h.power, h.trays, h.attention.tame, h.bounded.2, h.settings⟩

/-- The end of an event within which the ports stayed bounded. -/
theorem State.endEvent_invariant (h : s.Within) (b : ∀ q, (s.link q).Bounded) : s.endEvent.Invariant := by
  obtain ⟨a1, a2, a3, a4, a5, _, a7⟩ := State.endEvent_settles h
  refine ⟨a1, a2, a3, ⟨fun q => ?_, a4⟩, a5⟩
  unfold LinkPort.Bounded
  rw [(a7 q).1, (a7 q).unsent]; exact b q

/-- An event that is a run of moves keeps the invariants. -/
theorem Moves.event {sp : Prop} (m : Moves sp s t) (h : s.Invariant) : t.endEvent.Invariant := by
  refine State.endEvent_invariant (m.within h.within) fun q => ?_
  unfold LinkPort.Bounded
  rw [(m.links q).1, (m.links q).unsent]; exact h.bounded.1 q

/-! ## What a request taken leaves of the ports -/

/-- The ports hold no more packets and unsent replies than before. -/
def State.Fewer (s t : State) : Prop :=
  ∀ q, (t.link q).fifo.length ≤ (s.link q).fifo.length ∧ (t.link q).unsent ≤ (s.link q).unsent

theorem Moves.fewer {sp : Prop} (m : Moves sp s t) : s.Fewer t := fun q =>
  ⟨Nat.le_of_eq (by rw [(m.links q).1]), Nat.le_of_eq (m.links q).unsent⟩

theorem State.Fewer.refl (s : State) : s.Fewer s := fun _ => ⟨Nat.le_refl _, Nat.le_refl _⟩

theorem State.Fewer.trans {u : State} (h : s.Fewer t) (k : t.Fewer u) : s.Fewer u := fun q =>
  ⟨Nat.le_trans (k q).1 (h q).1, Nat.le_trans (k q).2 (h q).2⟩

/-- R188: a rack reset empties every FIFO and drops every unsent reply. -/
theorem State.rackReset_fewer (s : State) (o : Origin) : s.Fewer (s.rackReset o) := by
  unfold State.rackReset
  dsimp only
  generalize State.rebuildAdmission _ = u
  refine State.Fewer.trans (t := (u.resetLinks o).resetAttention) (fun q => ?_)
    ((Moves.fold (sp := False) (fun h => h.raiseTo) _ (.refl _)).regrade).fewer
  cases q <;> exact ⟨Nat.zero_le _, Nat.zero_le _⟩

theorem State.fewer_of_eq (a : t.linkA = s.linkA) (b : t.linkB = s.linkB) : s.Fewer t := fun q => by
  rw [State.link_congr a b]; exact ⟨Nat.le_refl _, Nat.le_refl _⟩

theorem State.takeSetLine_fewer {m a b c d e : Word} : s.Fewer (s.takeSetLine m a b c d e).state := by
  unfold State.takeSetLine
  have win : ∀ {u : State}, s.Fewer u → s.Fewer (if carried m 1 = true then { u with window := u.youngWindow } else u) := by
    intro u hu; split <;> exact hu
  have budget : ∀ {u : State} {c : Prop} [Decidable c], s.Fewer u →
      s.Fewer (if c then u.raiseTo .b (.rack .overBudget) else u) := by
    intro u c _ hu; split
    · exact hu.trans ((Moves.refl u).raiseTo (sp := False)).fewer
    · exact hu
  have heads : ∀ {u : State} {c : Prop} [Decidable c], s.Fewer u → s.Fewer (if c then u.testHead else u) := by
    intro u c _ hu; split
    · exact hu.trans ((Moves.refl u).testHead (sp := False)).fewer
    · exact hu
  exact heads (budget (win (State.fewer_of_eq rfl rfl)))

theorem State.takeSetClass_fewer {n : Word} {e : ClassEntry} : s.Fewer (s.takeSetClass n e).state := by
  unfold State.takeSetClass
  split
  · exact .refl _
  · split
    · exact .refl _
    · dsimp only
      split
      · exact (State.fewer_of_eq rfl rfl).trans ((Moves.refl _).testHead (sp := False)).fewer
      · exact State.fewer_of_eq rfl rfl

theorem State.takeSetGradeTable_fewer {g : GradeTable} : s.Fewer (s.takeSetGradeTable g).state := by
  unfold State.takeSetGradeTable
  split
  · exact .refl _
  · dsimp only
    split
    · exact .refl _
    · exact (State.fewer_of_eq rfl rfl).trans ((Moves.refl _).tryTake (sp := False)).fewer

/-- No request taken places a reply that R179 counts, or puts a packet into a FIFO. -/
theorem State.takeRequest_fewer (h : s.PowerSafe) (k : ReqKind) (tag : Word) (body : List Word) :
    s.Fewer (s.takeRequest p k tag body).state := by
  have m : ∀ {x : Taken}, x.MovesFrom s → s.Fewer x.state := fun k => Moves.fewer k
  have r := State.Fewer.refl s
  unfold State.takeRequest
  cases k with
  | read =>
    dsimp only; split
    · exact m State.takeRead_moves
    · exact r
  | setMask =>
    dsimp only; split
    · exact m State.takeSetMask_moves
    · exact r
  | rackReset =>
    dsimp only; split
    · exact (State.rackReset_fewer s _).trans ((Moves.refl _).placeResetDone.placeResetDone (sp := False)).fewer
    · exact r
  | loadPlan =>
    dsimp only; split
    · split
      · exact m State.takeLoadPlan_moves
      · exact r
    · exact r
  | start =>
    dsimp only; split
    · exact m (State.takeStart_moves h)
    · exact r
  | hold =>
    dsimp only; split
    · exact m State.takeHold_moves
    · exact r
  | resume =>
    dsimp only; split
    · exact m (State.takeResume_moves h)
    · exact r
  | abort =>
    dsimp only; split
    · exact m (State.takeAbort_moves h)
    · exact r
  | retest =>
    dsimp only; split
    · exact m (State.takeRetest_moves h)
    · exact r
  | slotReset =>
    dsimp only; split
    · exact m State.takeSlotReset_moves
    · exact r
  | directOp =>
    dsimp only; split
    · exact m State.takeDirectOp_moves
    · exact r
  | setTiming =>
    dsimp only; split
    · exact State.fewer_of_eq rfl rfl
    · exact r
  | setClass =>
    dsimp only; split
    · exact State.takeSetClass_fewer
    · exact r
  | setGradeTable =>
    dsimp only; split
    · exact State.takeSetGradeTable_fewer
    · exact r
  | declare =>
    dsimp only; split
    · exact m (State.takeDeclare_moves h)
    · exact r
  | setLine =>
    dsimp only; split
    · exact State.takeSetLine_fewer
    · exact r
  | openLot =>
    dsimp only; split
    · exact m State.takeOpenLot_moves
    · exact r
  | closeLot =>
    dsimp only; split
    · exact m State.takeCloseLot_moves
    · exact r
  | nextPick =>
    dsimp only; split
    · exact m (State.takeNextPick_moves h)
    · exact r
  | cancelPick =>
    dsimp only; split
    · exact m (State.takeCancelPick_moves h)
    · exact r
  | unload =>
    dsimp only; split
    · exact m (State.takeUnload_moves h)
    · exact r
  | withdraw =>
    dsimp only; split
    · exact m State.takeWithdraw_moves
    · exact r
  | requeue =>
    dsimp only; split
    · exact m State.takeRequeue_moves
    · exact r
  | releaseLot =>
    dsimp only; split
    · exact m State.takeReleaseLot_moves
    · exact r

/-! ## Dispatch -/

theorem State.judge_sound (h : s.Within) (x : Packet) :
    (s.judge p x).state.Within ∧ s.Fewer (s.judge p x).state := by
  unfold State.judge
  split
  · exact ⟨h, .refl _⟩
  · split
    · exact ⟨h, .refl _⟩
    · split
      · exact ⟨State.takeRequest_within h _ _ _, State.takeRequest_fewer h.power _ _ _⟩
      · exact ⟨h, .refl _⟩

/-- R179: one request taken from a port whose unsent replies are fewer than 8. -/
theorem State.takePacket_invariant (h : s.Within) (b : ∀ q, (s.link q).Bounded) (u : (s.link p).unsent < 8) (x : Packet) :
    (s.takePacket p x).Invariant := by
  obtain ⟨w, f⟩ := State.judge_sound (p := p) h x
  unfold State.takePacket Taken.placed
  split
  · exact State.endEvent_invariant w fun q => ⟨Nat.le_trans (f q).1 (b q).1, Nat.le_trans (f q).2 (b q).2⟩
  · refine State.endEvent_invariant (w.congr ?_ ?_ ?_ ?_ ?_ ?_ ?_ ?_) fun q => ?_
    iterate 7 simp [State.pushOut]
    · exact SameSetup.settings (s := (s.judge p x).state) (by constructor <;> simp [State.pushOut]) w.settings
    · unfold State.pushOut
      rw [State.link_modLink]
      split
      · rename_i e
        subst e
        refine ⟨Nat.le_trans (f _).1 (b _).1, ?_⟩
        have k := (f p).2
        have push : ∀ (l : LinkPort) (y : OutPacket), LinkPort.unsent { l with out := l.out ++ [y] } ≤ l.unsent + 1 := by
          intro l y
          simp only [LinkPort.unsent, List.filter_append, List.length_append]
          have := List.length_filter_le OutPacket.counted [y]
          simp only [List.length_cons, List.length_nil] at this
          omega
        exact Nat.le_trans (push _ _) (by omega)
      · exact ⟨Nat.le_trans (f q).1 (b q).1, Nat.le_trans (f q).2 (b q).2⟩

/-- A change of one port's packets within its bounds keeps the invariants. -/
theorem State.modLink_invariant (h : s.Invariant) (f : LinkPort → LinkPort) (b : (f (s.link p)).Bounded) :
    (s.modLink p f).Invariant where
  power := State.powerSafe_congr (State.record_congr (by simp)) (by simp) (by simp) (by simp) h.power
  trays n := by simpa using h.trays n
  attention q := by rw [State.att_modLink]; exact h.attention q
  bounded := ⟨fun q => by
    rw [State.link_modLink]; split
    · rename_i e; subst e; exact b
    · exact h.bounded.1 q, fun j => by rw [State.slot_congr (s := s) (by simp)]; exact h.bounded.2 j⟩
  settings := SameSetup.settings (s := s) (by constructor <;> simp) h.settings

theorem State.pump_invariant (n : Nat) : ∀ {s : State}, s.Invariant → (State.pump n p s).Invariant := by
  induction n with
  | zero => exact id
  | succ n ih =>
    intro s h
    unfold State.pump
    split
    · rename_i c
      split
      · exact h
      · rename_i x rest fifo
        have u : (s.link p).unsent < 8 := by
          simp only [State.canTake, Bool.and_eq_true, decide_eq_true_eq] at c; exact c.2
        have k := State.modLink_invariant (p := p) h (fun l => { l with fifo := rest })
          ⟨by have := (h.bounded.1 p).1; rw [fifo] at this; simp only [List.length_cons] at this ⊢; omega, (h.bounded.1 p).2⟩
        refine ih (State.takePacket_invariant k.within k.bounded.1 ?_ x)
        rw [State.link_modLink_self]; exact u
    · exact h

theorem State.freeCount_invariant (h : s.Invariant) (n : Nat) : ({ s with freeCount := n } : State).Invariant where
  power := State.powerSafe_congr (s := s) (fun _ => rfl) rfl rfl rfl h.power
  trays := h.trays
  attention := h.attention
  bounded := h.bounded
  settings := h.settings

theorem State.takeHead_invariant (h : s.Invariant) (c : s.canTake p = true) : (s.takeHead p).Invariant := by
  unfold State.takeHead
  split
  · exact h
  · rename_i x rest fifo
    have u : (s.link p).unsent < 8 := by
      simp only [State.canTake, Bool.and_eq_true, decide_eq_true_eq] at c; exact c.2
    have k := State.modLink_invariant (p := p) h (fun l => { l with fifo := rest })
      ⟨by have := (h.bounded.1 p).1; rw [fifo] at this; simp only [List.length_cons] at this ⊢; omega, (h.bounded.1 p).2⟩
    refine State.takePacket_invariant k.within k.bounded.1 ?_ x
    rw [State.link_modLink_self]; exact u

theorem State.pumpBoth_invariant (n : Nat) : ∀ {s : State}, s.Invariant → (State.pumpBoth n s).Invariant := by
  induction n with
  | zero => exact id
  | succ n ih =>
    intro s h
    have c : ∀ {p}, s.offersPacket p = true → s.canTake p = true := by
      intro p k; simp only [State.offersPacket, Bool.and_eq_true] at k; exact k.1
    unfold State.pumpBoth
    split
    · rename_i a b
      refine ih (State.takeHead_invariant (State.freeCount_invariant h _) ?_)
      cases Config.nextPort s.freeCount
      · exact c a
      · exact c b
    · rename_i a b; exact ih (State.takeHead_invariant h (c a))
    · rename_i a b; exact ih (State.takeHead_invariant h (c b))
    · exact h

theorem State.dispatchBoth_invariant (h : s.Invariant) : s.dispatchBoth.Invariant := State.pumpBoth_invariant _ h

theorem State.dispatch_invariant (h : s.Invariant) : (s.dispatch p).Invariant := State.pump_invariant _ h

theorem State.receive_invariant (h : s.Invariant) (x : Option Packet) : (s.receive p x).Invariant := by
  unfold State.receive
  split
  · exact h
  · split
    · exact ((Moves.refl s).raiseTo (sp := False)).event h
    · split
      · exact ((Moves.refl s).raiseTo (sp := False)).event h
      · rename_i k
        refine State.dispatch_invariant (State.modLink_invariant h _ ⟨?_, (h.bounded.1 p).2⟩)
        have : (s.link p).fifo.length < 8 := by simpa [Config.fifoDepth] using k
        simp only [List.length_append, List.length_cons, List.length_nil]; omega

end Sys2Proof.Machine
end

