-- ==== Sys2Proof/Laws/PerInstr.lean ====
section
/-! SUPPORT. Statements about commands as syntax, made constructor by constructor. -/

namespace Sys2Proof.Laws.RequestFits

/-- R190: the body that a well-formed request carries fits a packet. -/
def Statement (i : Instr) : Prop := i.wf = true → i.bodyWords ≤ 256

/-- What well-formedness says of the body of any command. -/
theorem of_wf (i : Instr) : Statement i := fun h =>
  of_decide_eq_true (Bool.and_eq_true_iff.mp h).1

theorem read (port : Port) (tag collection index count : Word) : Statement (.read port tag collection index count) := of_wf _

theorem setMask (port : Port) (tag mask : Word) : Statement (.setMask port tag mask) := of_wf _

theorem rackReset (port : Port) (tag : Word) : Statement (.rackReset port tag) := of_wf _

theorem loadPlan (port : Port) (tag plan : Word) (entries : List StepWords) : Statement (.loadPlan port tag plan entries) := of_wf _

theorem start (port : Port) (tag plan : Word) (slots : List Word) : Statement (.start port tag plan slots) := of_wf _

theorem hold (port : Port) (tag slot : Word) : Statement (.hold port tag slot) := of_wf _

theorem resume (port : Port) (tag slot : Word) : Statement (.resume port tag slot) := of_wf _

theorem abort (port : Port) (tag slot : Word) : Statement (.abort port tag slot) := of_wf _

theorem retest (port : Port) (tag slot plan : Word) : Statement (.retest port tag slot plan) := of_wf _

theorem slotReset (port : Port) (tag slot : Word) : Statement (.slotReset port tag slot) := of_wf _

theorem directOp (port : Port) (tag slot kind startHi startLo countHi countLo : Word) : Statement (.directOp port tag slot kind startHi startLo countHi countLo) := of_wf _

theorem setTiming (port : Port) (tag present period hot poll : Word) : Statement (.setTiming port tag present period hot poll) := of_wf _

theorem setClass (port : Port) (tag cls surgeRun seekTrip times capHi capLo rate : Word) : Statement (.setClass port tag cls surgeRun seekTrip times capHi capLo rate) := of_wf _

theorem setGradeTable (port : Port) (tag weights limits slowT1 t2t3 t4t5 : Word) : Statement (.setGradeTable port tag weights limits slowT1 t2t3 t4t5) := of_wf _

theorem declare (port : Port) (tag slot cls : Word) : Statement (.declare port tag slot cls) := of_wf _

theorem setLine (port : Port) (tag present budget window count declareTime unloadTime : Word) : Statement (.setLine port tag present budget window count declareTime unloadTime) := of_wf _

theorem openLot (port : Port) (tag bin capacity label0 label1 label2 label3 : Word) : Statement (.openLot port tag bin capacity label0 label1 label2 label3) := of_wf _

theorem closeLot (port : Port) (tag lot : Word) : Statement (.closeLot port tag lot) := of_wf _

theorem nextPick (port : Port) (tag lot : Word) : Statement (.nextPick port tag lot) := of_wf _

theorem cancelPick (port : Port) (tag slot : Word) : Statement (.cancelPick port tag slot) := of_wf _

theorem unload (port : Port) (tag slot force : Word) : Statement (.unload port tag slot force) := of_wf _

theorem withdraw (port : Port) (tag slot : Word) : Statement (.withdraw port tag slot) := of_wf _

theorem requeue (port : Port) (tag slot : Word) : Statement (.requeue port tag slot) := of_wf _

theorem releaseLot (port : Port) (tag lot : Word) : Statement (.releaseLot port tag lot) := of_wf _

theorem packetReceive (port : Port) (framed : Bool) (words : List Word) : Statement (.packetReceive port framed words) := of_wf _

theorem packetSent (port : Port) : Statement (.packetSent port) := of_wf _

theorem linkUp (port : Port) : Statement (.linkUp port) := of_wf _

theorem linkDown (port : Port) : Statement (.linkDown port) := of_wf _

theorem resetInputAssert : Statement (.resetInputAssert) := of_wf _

theorem resetInputRelease : Statement (.resetInputRelease) := of_wf _

theorem powerOnReset (straps : BitVec 24) : Statement (.powerOnReset straps) := of_wf _

theorem presenceInputChange (slot : SlotId) (level : Presence) : Statement (.presenceInputChange slot level) := of_wf _

theorem insertionRecognised (slot : SlotId) : Statement (.insertionRecognised slot) := of_wf _

theorem removalRecognised (slot : SlotId) : Statement (.removalRecognised slot) := of_wf _

theorem declareTimeout (slot : SlotId) : Statement (.declareTimeout slot) := of_wf _

theorem unloadOverdue (slot : SlotId) : Statement (.unloadOverdue slot) := of_wf _

theorem currentConversion (slot : SlotId) (reading : Int) : Statement (.currentConversion slot reading) := of_wf _

theorem surgeTimerExpiry (slot : SlotId) : Statement (.surgeTimerExpiry slot) := of_wf _

theorem readyTimeout (slot : SlotId) : Statement (.readyTimeout slot) := of_wf _

theorem headWaitExpiry : Statement (.headWaitExpiry) := of_wf _

theorem windowEntryAged : Statement (.windowEntryAged) := of_wf _

theorem driveReadyReport (slot : SlotId) : Statement (.driveReadyReport slot) := of_wf _

theorem driveCompletion (slot : SlotId) (completion : Completion) : Statement (.driveCompletion slot completion) := of_wf _

theorem operationTimeout (slot : SlotId) : Statement (.operationTimeout slot) := of_wf _

theorem portLinkUp (slot : SlotId) : Statement (.portLinkUp slot) := of_wf _

theorem portResetTimeout (slot : SlotId) : Statement (.portResetTimeout slot) := of_wf _

theorem patrolTimerExpiry (slot : SlotId) : Statement (.patrolTimerExpiry slot) := of_wf _

theorem soakCreditReached (slot : SlotId) : Statement (.soakCreditReached slot) := of_wf _

theorem offTimeReached (slot : SlotId) : Statement (.offTimeReached slot) := of_wf _

theorem stallTimerExpiry (slot : SlotId) : Statement (.stallTimerExpiry slot) := of_wf _

theorem gradingCompletion : Statement (.gradingCompletion) := of_wf _

end Sys2Proof.Laws.RequestFits
end

