-- ==== Sys2Proof/Laws/Take.lean ====
section
/-! SUPPORT. A request that its port takes at once (R177, R179): what the command leaves, in terms of what its owner decides. -/

namespace Sys2Proof.Machine

variable {s t : State} {p : Port}

theorem Port.linkModLink (f : LinkPort → LinkPort) : (s.modLink p f).link p = f (s.link p) := by
  cases p <;> rfl

/-- A port given back what it held is as it was. -/
theorem State.modLink_id {f : LinkPort → LinkPort} (h : f (s.link p) = s.link p) : s.modLink p f = s := by
  cases p <;> simp_all [State.modLink, State.link]

theorem State.modLink_modLink (f g : LinkPort → LinkPort) : (s.modLink p f).modLink p g = s.modLink p fun l => g (f l) := by
  cases p <;> rfl

theorem ReqKind.ofCode_code (k : ReqKind) : ReqKind.ofCode (BitVec.ofNat 8 k.code).toNat = some k := by
  cases k <;> decide +kernel

/-- R178: a good request packet is handed to its owner on a port that accepts its kind, and refused on the other. -/
theorem State.judge_request (k : ReqKind) (tag : Word) {body : List Word} (fits : body.length ≤ 256) :
    s.judge p (requestPacket k tag body) =
      if k.acceptedOn p then s.takeRequest p k tag body else s.refuse .notThisPort := by
  have len : body.length % 512 = body.length := Nat.mod_eq_of_lt (by omega)
  have code : ReqKind.ofCode (k.code % 256) = some k := by simpa using ReqKind.ofCode_code k
  simp [State.judge, requestPacket, len, code, Nat.not_lt.mpr fits]

/-- R179: a clear port takes a request as it arrives. -/
theorem State.request_clear (h : s.Clear p) (k : ReqKind) (tag : Word) {body : List Word} (fits : body.length ≤ 256) :
    s.request p k tag body = .next ((((if k.acceptedOn p then s.takeRequest p k tag body else s.refuse .notThisPort)).placed p
      (requestPacket k tag body)).endEvent) := by
  have back : (s.modLink p fun l => { l with fifo := l.fifo ++ [requestPacket k tag body] }).modLink p
      (fun l => { l with fifo := [] }) = s := by
    rw [State.modLink_modLink]
    exact State.modLink_id (by simp [← h.fifo])
  have can : (s.modLink p fun l => { l with fifo := l.fifo ++ [requestPacket k tag body] }).canTake p = true := by
    have high : (s.modLink p fun l => { l with fifo := l.fifo ++ [requestPacket k tag body] }).resetLow = false := by
      simp [h.high]
    have few := h.unsent
    simp only [State.canTake, high, Port.linkModLink, Config.replyLimit, LinkPort.unsent] at few ⊢
    simp [few]
  rw [← State.judge_request k tag fits]
  unfold State.request State.receive State.dispatch
  simp only [State.linkIsUp, h.up, h.fifo, Config.fifoDepth, Port.linkModLink, List.nil_append, List.length_cons,
    List.length_nil]
  unfold State.pump
  simp only [if_pos can, Port.linkModLink, h.fifo, List.nil_append, back]
  rfl

/-- The placing of an answer at the end of a request's event. -/
theorem Taken.placed_some (k : ReqKind) (tag : Word) (body : List Word) (u : State) (a : Answer) :
    (Taken.placed { state := u, answer := some a } p (requestPacket k tag body)).endEvent =
      u.replies p k tag a.status a.addressValid a.body := rfl

theorem Taken.placed_none (x : Packet) (u : State) : (Taken.placed { state := u, answer := none } p x) = u := rfl

/-- A request that its owner answers. -/
theorem State.request_answered (h : s.Clear p) {k : ReqKind} {tag : Word} {body : List Word} (on : k.acceptedOn p = true)
    (fits : body.length ≤ 256) {u : State} {a : Answer} (taken : s.takeRequest p k tag body = { state := u, answer := some a }) :
    s.request p k tag body = .next (u.replies p k tag a.status a.addressValid a.body) := by
  rw [State.request_clear h k tag fits, if_pos on, taken]; rfl

end Sys2Proof.Machine
end

