-- ==== Sys2Proof/Laws/Words.lean ====
section
/-! SUPPORT. The bits of a word built from fields, and the lengths and places of packed and padded lists: what the layouts of
R191 and R193 rest on; and the check word, bit by bit. -/

namespace Sys2Proof.Machine

theorem getLsbD_place (v lo n k : Nat) :
    (place v lo n).getLsbD k = (decide (k < 32) && decide (lo ≤ k) && decide (k - lo < n) && v.testBit (k - lo)) := by
  simp only [place, BitVec.getLsbD_ofNat, Nat.testBit_shiftLeft, Nat.testBit_mod_two_pow]
  grind

/-- Where bit `k` of a word is set, one of its fields has it set. -/
theorem getLsbD_word (fields : List Word) (k : Nat) : (word fields).getLsbD k = fields.any fun f => f.getLsbD k := by
  suffices h : ∀ acc : Word, (fields.foldl (· ||| ·) acc).getLsbD k = (acc.getLsbD k || fields.any fun f => f.getLsbD k) by
    simpa [word] using h 0
  induction fields with
  | nil => simp
  | cons f fs ih => intro acc; simp [ih, Bool.or_assoc]

/-- The value of a field: its bits, lowest first. -/
theorem testBit_extractLsb (w : Word) (hi lo k : Nat) :
    (w.extractLsb hi lo).toNat.testBit k = (decide (k < hi - lo + 1) && w.getLsbD (lo + k)) := by
  rw [BitVec.testBit_toNat, BitVec.extractLsb, BitVec.getLsbD_extractLsb']

@[simp] theorem length_fitWords (n : Nat) (ws : List Word) : (fitWords n ws).length = n := by
  simp [fitWords]

/-- A padded list holds the list, and zeros behind it. -/
theorem getD_fitWords (n k : Nat) (ws : List Word) : (fitWords n ws).getD k 0 = if k < n then ws.getD k 0 else 0 := by
  simp only [fitWords, List.getD_eq_getElem?_getD, List.getElem?_take]
  split
  · by_cases h : k < ws.length
    · rw [List.getElem?_append_left h]
    · rw [List.getElem?_append_right (by omega), List.getElem?_replicate, List.getElem?_eq_none (by omega)]
      split <;> rfl
  · rfl

theorem length_packBytes (bs : List Byte) : (packBytes bs).length = (bs.length + 3) / 4 := by
  induction bs using packBytes.induct <;> simp [packBytes, *]
  omega

/-- Byte `k` of a packed list is in word `k / 4`, the first of each four in bits 31 to 24. -/
theorem byte_packBytes (bs : List Byte) (k : Nat) :
    ((packBytes bs).getD (k / 4) 0).extractLsb' (24 - 8 * (k % 4)) 8 = bs.getD k 0 := by
  have low : k < 4 → k = 0 ∨ k = 1 ∨ k = 2 ∨ k = 3 := by omega
  induction bs using packBytes.induct generalizing k with
  | case1 a b c d rest ih =>
    by_cases h : k < 4
    · obtain rfl | rfl | rfl | rfl := low h
      all_goals ext j hj; simp [packBytes]; grind
    · obtain ⟨m, rfl⟩ : ∃ m, k = m + 4 := ⟨k - 4, by omega⟩
      simpa [packBytes, show (m + 4) / 4 = m / 4 + 1 by omega] using ih m (by omega)
  | case2 => simp [packBytes]
  | case3 | case4 | case5 =>
    by_cases h : k < 4
    · obtain rfl | rfl | rfl | rfl := low h
      all_goals ext j hj; simp [packBytes, getLsbD_place]; try grind
    · obtain ⟨m, rfl⟩ : ∃ m, k = m + 4 := ⟨k - 4, by omega⟩
      simp [packBytes, show (m + 4) / 4 = m / 4 + 1 by omega]

/-- One step of R190's division, taking in the bits of the words one by one. -/
def crcStep (crc : Word) (bit : Bool) : Word := if crc.msb = bit then crc <<< 1 else crc <<< 1 ^^^ 0x04C11DB7

/-- A bit of the word still to come may stand in the register already. -/
theorem crcBit_xor (c w : Word) : crcBit (c ^^^ w) = crcStep c w.msb ^^^ (w <<< 1) := by
  simp only [crcBit, crcStep, BitVec.msb_xor]
  cases c.msb <;> cases w.msb <;> simp [BitVec.shiftLeft_xor_distrib] <;> grind

/-- The first `n` bits of a word, taken in at once or one by one. -/
theorem crcBits_xor (c w : Word) (n : Nat) (h : n ≤ 32) :
    (List.range n).foldl (fun c _ => crcBit c) (c ^^^ w) =
      ((List.range n).map fun k => w.getLsbD (31 - k)).foldl crcStep c ^^^ (w <<< n) := by
  induction n with
  | zero => simp
  | succ n ih =>
    rw [List.range_succ, List.foldl_append, List.map_append, List.foldl_append, ih (by omega)]
    simp only [List.foldl_cons, List.foldl_nil, List.map_cons, List.map_nil, crcBit_xor]
    congr 1
    · congr 1
      simp [BitVec.msb_eq_getLsbD_last]
      grind
    · rw [← BitVec.shiftLeft_add]

/-- R190: the check word is the complement of the division over the bits of the words, most significant first, from all ones. -/
theorem checkWord_eq (ws : List Word) : checkWord ws =
    ~~~ (ws.flatMap fun w => (List.range 32).map fun k => w.getLsbD (31 - k)).foldl
      (fun (crc : Word) bit => if crc.msb = bit then crc <<< 1 else crc <<< 1 ^^^ 0x04C11DB7) 0xFFFFFFFF := by
  change ~~~ ws.foldl crcWord _ = ~~~ (ws.flatMap _).foldl crcStep _
  congr 1
  rw [List.foldl_flatMap]
  congr 1
  funext c w
  rw [crcWord, crcBits_xor c w 32 (by omega)]
  simp

end Sys2Proof.Machine
end

