-- ==== Sys2Proof/Tests/Slice0.lean ====
section
/-! SUPPORT. The model's own tests: a smoke test of WellFormed, one or two steps of every command on a small state, and for every
obligation with hypotheses a witness that meets them. Expected values are the manual's: its worked sequences and tables, or
hand calculation from a rule, named with each group. -/

open Sys2Proof Sys2Proof.Machine

namespace Sys2Proof.Tests

set_option Elab.async false

/-! ## Small states -/

/-- What a command leaves. -/
def after (c : Instr) (s : State) : State :=
  match exec c s with
  | .next t => t
  | .fault _ => s
  | .refused _ => s

def run (cs : List Instr) (s : State) : State := cs.foldl (fun s c => after c s) s

/-- Both links UP at 108,000 ms, and the line settings of section 2.9. -/
def base : State :=
  let up : LinkPort := { link := .up, powerOnHeld := false }
  { State.reset with now := 108000, line := { budget := 1000 }, linkA := up, linkB := up }

/-- A slot of `s` holds `x`, and the committed load counts it. -/
def put (i : SlotId) (x : Slot) (s : State) : State :=
  let t := s.setSlot i x
  { t with load := t.load + t.phaseLoad i }

def drive : Identity :=
  { serial := Vector.replicate 20 65, model := Vector.replicate 40 66, firmware := Vector.replicate 8 67, capacity := 8000000000 }

/-- A seated drive in state `st`, unpowered. -/
def seated (st : SlotState) : Slot :=
  { record := { state := st, presence := .present, cls := some 0 }, sm := { raw := .present } }

/-- A drive of class 0 in state `st`, powered and ready, polled every 30 s. -/
def powered (st : SlotState) : Slot :=
  { record := { state := st, presence := .present, cls := some 0, identity := some drive, phase := .run, temperature := some 38 }
    sm := { raw := .present }
    dpe := { port := .idle, ready := true, tag := 40, patrolTimer := some 130000 } }

/-- A drive in DONE with a GRADED verdict of bin S2. -/
def graded (p : Placement) : Slot :=
  { record := { (seated .done).record with
      identity := some drive, placement := p
      verdict := some { kind := .graded, bin := .s2, score := some 97, revision := some 3, plan := some 6, at_ := 5 } }
    sm := { raw := .present } }

/-- Plan 2 of section 4.9. -/
def plan2 : Plan :=
  { entries := [.soak 600 (some ⟨40, 50⟩) 900,
      .sweep { mode := .readVerify, pattern := 0, segment := 4096, quiet := true, band := some ⟨35, 58⟩, stall := 0, timeout := 300 },
      .seekstorm 90 .random none 0, .repeat_ 1 1, .powerCycle 20, .notify 7, .end_] }

def withPlan (p : PlanId) (q : Plan) (s : State) : State := { s with plans := s.plans.set p q }

/-- A slot RUNNING or HELD at step `k` of plan 2, in phase `ph`. -/
def running (st : SlotState) (k : Nat) (ph : StepPhase) (f : RunContext → RunContext := id) : Slot :=
  { powered st with record := { (powered st).record with run := some (f { plan := 2, step := k, phase := ph, stepStart := 100000 }) } }

def inFlight (op : Operation) (who : Requester) (x : Slot) : Slot :=
  { x with dpe := { x.dpe with
    port := .busy, tag := 41, inFlight := some { op := op, tag := 41, requester := who, issued := 90000, deadline := 108000 } } }

/-- A completion of tag 41. -/
def answer (st : CompletionStatus) (f : Completion → Completion := id) : Completion :=
  f { tag := 41, status := st, sectorsDone := 0, hardErrors := 0, softErrors := 0, seeksDone := 0, seekErrors := 0, duration := 0
      temperature := 41, faultCodes := [], identity := drive }

/-- Section 7.6, at 1,450: slots 4 and 15 are queued with plan 2. -/
def twoGrading : State :=
  { put 4 (seated .grading) (put 15 (seated .grading) base) with
    gradingQueue := [⟨4, 2, 1⟩, ⟨15, 2, 2⟩], unsetNotice := true }

/-- Section 8.12, before 100: slots 3 and 8 wait for S2. -/
def carton : State :=
  { put 3 (graded .pending) (put 8 (graded .pending) base) with binQueues := base.binQueues.set 1 [3, 8] }

/-- Section 8.12: lot 0 with the entries given, in the opening order. -/
def withLot (st : LotState) (es : List (SlotId × EntryState)) (s : State) : State :=
  { s with
    opening := [0]
    lots := s.lots.set 0 { state := st, bin := .s2, capacity := 3
                           entries := es.map fun e => ⟨drive.serial, e.1, .graded, some 97, e.2⟩ } }

def lotState (s : State) : LotState × List (SlotId × EntryState) := (s.lots[0].state, s.lots[0].entries.map fun e => (e.slot, e.state))

/-! ## The invariant and the clear port, as a test can show them -/

abbrev ClearNow (s : State) (p : Port) : Prop :=
  (s.link p).link = .up ∧ (s.link p).fifo = [] ∧ s.resetLow = false ∧ (s.link p).unsent < 8

theorem clear_of {s : State} {p : Port} (h : ClearNow s p) : s.Clear p := ⟨h.1, h.2.1, h.2.2.1, h.2.2.2⟩

abbrev AttentionNow (s : State) (p : Port) : Prop :=
  ((s.att p).first = none ∧ ((s.att p).notice = .sent ↔ (s.att p).isEmpty = false)) ∧
    (s.att p).mask &&& receivedMask p = (s.att p).mask

theorem attentionSafe_of {s : State} (h : AttentionNow s .a ∧ AttentionNow s .b) : s.AttentionSafe
  | .a => h.1
  | .b => h.2

abbrev PowerNow (s : State) : Prop :=
  s.load = (allSlots.map s.phaseLoad).sum ∧ (∀ i : SlotId, (s.record i).state.unpowered = true → (s.record i).phase = .off) ∧
    (∀ e ∈ s.admission, e.kind = .spinup → (s.record e.slot).state = .spinWait ∨ (s.record e.slot).state = .running) ∧
    (s.admission.map AdmissionEntry.slot).Nodup

abbrev TrayNow (t : Tray) (n : TrayId) : Prop :=
  (t.quietCount = 0 ∨ t.stormCount = 0) ∧ t.slots.Nodup ∧ ∀ i ∈ t.slots, trayOf i = n

theorem traySound_of {t : Tray} {n : TrayId} (h : TrayNow t n) : t.Sound n := ⟨h.1, h.2.1, h.2.2⟩

abbrev TraysNow (s : State) : Prop := ∀ n : TrayId, TrayNow s.trays[n] n

abbrev BoundedNow (s : State) : Prop :=
  (s.linkA.fifo.length ≤ 8 ∧ s.linkA.unsent ≤ 8) ∧ (s.linkB.fifo.length ≤ 8 ∧ s.linkB.unsent ≤ 8) ∧
    ∀ i : SlotId, (s.slot i).test.log.length ≤ 64

abbrev SettingsNow (s : State) : Prop :=
  (∀ c : ClassId, 1 ≤ s.classTable[c].irun ∧ s.classTable[c].irun ≤ 4000 ∧ s.classTable[c].irun ≤ s.classTable[c].isurge ∧
      s.classTable[c].isurge ≤ 4000 ∧ s.classTable[c].irun ≤ s.classTable[c].iseek ∧ s.classTable[c].iseek ≤ 4000 ∧
      1 ≤ s.classTable[c].trip ∧ s.classTable[c].trip ≤ 6000 ∧ 1 ≤ s.classTable[c].ts ∧ s.classTable[c].ts ≤ 30 ∧
      5 ≤ s.classTable[c].tr ∧ s.classTable[c].tr ≤ 60 ∧ s.classTable[c].capacity < 2 ^ 48 ∧ s.classTable[c].minRate < 2 ^ 32) ∧
    (s.line.budget ≤ 65535 ∧ 1 ≤ s.line.window ∧ s.line.window ≤ 60 ∧ 1 ≤ s.line.windowCount ∧ s.line.windowCount ≤ 8 ∧
      5 ≤ s.line.declareTime ∧ s.line.declareTime ≤ 300 ∧ 10 ≤ s.line.unloadTime ∧ s.line.unloadTime ≤ 600) ∧
    (1 ≤ s.timing.period ∧ s.timing.period ≤ 600 ∧ 30 ≤ s.timing.hot ∧ s.timing.hot ≤ 85 ∧ 1 ≤ s.timing.poll ∧ s.timing.poll ≤ 30) ∧
    if s.grade.set then
      1 ≤ s.grade.wH ∧ s.grade.wH ≤ 63 ∧ s.grade.wS ≤ 15 ∧ s.grade.wT ≤ 15 ∧ s.grade.hardLimit ≤ 65535 ∧ s.grade.slowLimit ≤ 255 ∧
        s.grade.seekLimit ≤ 65535 ∧ 1 ≤ s.grade.binCount ∧ s.grade.binCount ≤ 5 ∧ s.grade.thresholds.length = s.grade.binCount ∧
        (∀ t ∈ s.grade.thresholds, t ≤ 65535) ∧ ascending s.grade.thresholds = true
    else s.grade = {}

abbrev PlansNow (s : State) : Prop :=
  (∀ i : SlotId, (s.record i).run.isSome = true ↔ (s.record i).state = .running ∨ (s.record i).state = .held) ∧
    (∀ i : SlotId, (s.record i).startPlan.isSome = true →
      (s.record i).state = .spinWait ∨ (s.record i).state = .spinning ∨ (s.record i).state = .identifying) ∧
    ∀ p : PlanId, s.plans[p].useCount = (allSlots.map fun i => (s.record i).uses p).sum

abbrev LotNow (l : Lot) : Prop :=
  (l.entries.length ≤ l.capacity ∧ l.capacity ≤ 60) ∧ (l.state = .free → l = {}) ∧ (l.state ≠ .free → 1 ≤ l.capacity) ∧
    (l.state = .open_ → l.entries.length < l.capacity) ∧
    (l.state = .full ∨ l.state = .closed ∨ l.state = .complete → l.entries.length = l.capacity) ∧
    (l.state = .full ∨ l.state = .closed ∨ l.state = .complete →
      (l.state = .complete ↔ ∀ e ∈ l.entries, e.state = .picked ∨ e.state = .lost))

def bins : List Bin := [.s1, .s2, .s3, .s4, .s5, .reject, .rework]

abbrev PlacedNow (s : State) (i : SlotId) (n : LotId) : Prop :=
  if (s.record i).placement = .lot n then
    (s.record i).verdict.map Verdict.bin = some s.lots[n].bin ∧
      ((s.record i).state = .done ∧ (s.activeEntries n i).map LotEntry.state = [.unpicked] ∨
        (s.record i).state = .unloading ∧ (s.activeEntries n i).map LotEntry.state = [.picking])
  else s.activeEntries n i = []

abbrev QueueNow (s : State) (b : Bin) : Prop :=
  s.binQueues[b.index].Nodup ∧ ∀ i : SlotId, i ∈ s.binQueues[b.index] ↔
    (s.record i).placement = .pending ∧ (s.record i).verdict.map Verdict.bin = some b

abbrev WaitsNow (s : State) : Prop :=
  (∀ n : LotId, s.lots[n].state = .open_ → s.binQueues[s.lots[n].bin.index] = []) ∧
    ∀ i : SlotId, (s.record i).placement = .pending → (s.record i).state = .done ∧ (s.record i).verdict.isSome = true

abbrev OpeningNow (s : State) : Prop := s.opening.Nodup ∧ ∀ n : LotId, n ∈ s.opening ↔ s.lots[n].state ≠ .free

/-- The laws of serials, plans, queues and lots as a check that evaluates. -/
def ordered (s : State) : Bool :=
  decide (∀ i j : SlotId, i ≠ j → ∀ d ∈ (s.record i).identity, ∀ e ∈ (s.record j).identity, d.serial ≠ e.serial) &&
    decide (PlansNow s) && decide (∀ n : LotId, LotNow s.lots[n]) && decide (OpeningNow s) && decide (∀ b ∈ bins, QueueNow s b) &&
    decide (WaitsNow s) && decide (∀ (i : SlotId) (n : LotId), PlacedNow s i n)

theorem orderly_of {s : State} (h : ordered s = true) : s.Orderly := by
  simp only [ordered, Bool.and_eq_true, decide_eq_true_eq] at h
  obtain ⟨⟨⟨⟨⟨⟨hs, h1, h2, h3⟩, hl⟩, ho⟩, hq⟩, hd, hp⟩, hn⟩ := h
  exact {
    serials := hs
    plans := ⟨h1, h2, h3⟩
    lots := {
      lots := fun n => have ⟨bound, free, used, room, whole, finished⟩ := hl n; { bound, free, used, room, whole, finished }
      opening := ho
      queues := fun b => hq b (by cases b <;> decide)
      drained := hd
      none := fun i n k => by simpa [PlacedNow, k] using hn i n
      pending := hp
      placed := fun i n k => by simpa [PlacedNow, k] using hn i n } }

/-- The invariant as a check that evaluates. -/
def sound (s : State) : Bool :=
  decide (PowerNow s) && decide (TraysNow s) && decide (AttentionNow s .a ∧ AttentionNow s .b) && decide (BoundedNow s) &&
    decide (SettingsNow s)

theorem invariant_of {s : State} (h : sound s = true) : s.Invariant := by
  simp only [sound, Bool.and_eq_true, decide_eq_true_eq] at h
  obtain ⟨⟨⟨⟨⟨hl, hc, hs, h1⟩, ht⟩, ha⟩, ⟨b1, b2, b3⟩⟩, c1, c2, c3, c4⟩ := h
  exact {
    power := ⟨hl, hc, hs, h1⟩
    trays := fun n => traySound_of (ht n)
    attention := attentionSafe_of ha
    bounded := ⟨fun | .a => b1
                    | .b => b2, b3⟩
    settings := ⟨c1, c2, c3, c4⟩ }

theorem invariants_of {l : List State} (h : l.all sound = true) : ∀ u ∈ l, u.Invariant :=
  fun u m => invariant_of (List.all_eq_true.1 h u m)

theorem orderlies_of {l : List State} (h : l.all ordered = true) : ∀ u ∈ l, u.Orderly :=
  fun u m => orderly_of (List.all_eq_true.1 h u m)

theorem clears_of {p : Port} {l : List State} (h : (l.all fun u => decide (ClearNow u p)) = true) : ∀ u ∈ l, u.Clear p :=
  fun u m => clear_of (of_decide_eq_true (List.all_eq_true.1 h u m))

/-! ## What a command can carry (WellFormed) -/

theorem test_wf_completion_eight_codes :
    (Instr.driveCompletion 0 (answer .good fun c => { c with faultCodes := List.replicate 8 1 })).wf = true := by decide

theorem test_wf_completion_nine_codes_refused :
    (Instr.driveCompletion 0 (answer .good fun c => { c with faultCodes := List.replicate 9 1 })).wf = false := by decide

theorem test_wf_load_plan_body_256 : (Instr.loadPlan .a 1 0 (List.replicate 85 ⟨0, 0, 0⟩)).wf = true := by decide +kernel

theorem test_wf_load_plan_body_259_refused : (Instr.loadPlan .a 1 0 (List.replicate 86 ⟨0, 0, 0⟩)).wf = false := by decide +kernel

theorem test_wf_start_body_256 : (Instr.start .a 1 0 (List.replicate 255 0)).wf = true := by decide +kernel

theorem test_wf_start_body_257_refused : (Instr.start .a 1 0 (List.replicate 256 0)).wf = false := by decide +kernel

/-! ## Requests of both ports -/

/-- Section 11.6: READ (slot record, 20, 6) returns 4 records in 157 words. -/
theorem test_read_tail_of_slot_records :
    ((after (.read .a 9 0 20 6) base).linkA.out.map fun x => match x with
      | .reply r => (r.status, r.body.length)
      | .notice _ => (.timeout, 0)) = [(.clamped, 157)] := by decide +kernel

/-- Section 11.6: READ (slot record, 24, 1). -/
theorem test_read_beyond_slot_records :
    (after (.read .a 9 0 24 1) base).linkA.out =
      [.reply { tag := 9, kind := 1, status := .noSuch, done := false, addressValid := false, body := [] }] := by decide +kernel

/-- R172: port A's master has no use of PRESENT, UNLOAD_OVERDUE and the line controller's rack causes. -/
theorem test_set_mask_clamps :
    (after (.setMask .a 3 0x1FFF) base).linkA.out =
      [.reply { tag := 3, kind := 2, status := .clamped, done := true, addressValid := true, body := [0x181F] }] := by decide +kernel

/-- Section 10.7, at 3,000, with a SOAK step in place of the sweep. -/
theorem test_rack_reset_from_port_b :
    let t := after (.rackReset .b 30) (put 6 (running .running 0 .waitBand) (withPlan 2 plan2 base))
    t.linkA.out = [.notice (.resetDone 108000 .portB), .notice (.attention 108000 (.slot .held 6))] ∧
      t.linkB.out = [.notice (.resetDone 108000 .portB)] ∧ (t.record 6).holdCause = some .reset := by decide +kernel

/-- Slot 0 storms at 150 lu of 400, slots 23 and 5 wait for 300 lu each, in this order. -/
def storming : State :=
  let x := running .running 2 .waitOp
  let s := put 0 { x with record := { x.record with phase := .seek } } (withPlan 2 plan2 base)
  { put 5 (seated .spinWait) (put 23 (seated .spinWait) s) with
    line := { budget := 400 }, admission := [⟨23, .spinup, 5⟩, ⟨5, .spinup, 6⟩], headSince := 5, headWait := some 60005 }

/-- R46, R37, R47: the seek load that slot 0 releases lets slot 23 in, and slot 5 is the rebuilt queue. -/
theorem test_rack_reset_releases_seek_load :
    let t := after (.rackReset .a 30) storming
    (t.record 23).state = .spinning ∧ t.admission = [⟨5, .spinup, 108000⟩] ∧ t.load = 400 ∧ (t.record 0).phase = .run := by
  decide +kernel

/-! ## Requests of the test station -/

/-- The step words of plan 2 of section 4.9, written out from R193. -/
def plan2Words : List StepWords :=
  [⟨0x18283200, 600, 0x00384000⟩, ⟨0x2C233A00, 4096, 300⟩, ⟨0x30000000, 90, 0⟩, ⟨0x70000001, 1, 0⟩, ⟨0x40000000, 20, 0⟩,
    ⟨0x50000007, 0, 0⟩, ⟨0x80000000, 0, 0⟩]

theorem test_load_plan_reads_words : (after (.loadPlan .a 1 2 plan2Words) base).plans[2] = plan2 := by decide +kernel

/-- R71: a plan whose last entry is not END. -/
theorem test_load_plan_without_end :
    (after (.loadPlan .a 1 2 (plan2Words.take 6)) base).plans[2].entries = [] := by decide +kernel

/-- Section 4.9, at 0: the band is OUT at 38 °C, and the stall timer runs for 900 s. -/
theorem test_start_begins_step_0 :
    let t := after (.start .a 1 2 [6]) (put 6 (powered .ready) (withPlan 2 plan2 base))
    ((t.record 6).run.map fun x => (x.phase, x.band, x.outSince, x.stallTimer)) =
      some (.waitBand, .out, some 108000, some 1008000) ∧ t.plans[2].useCount = 1 := by decide +kernel

/-- R75: each slot has its own status. -/
theorem test_start_answers_each_slot :
    (after (.start .a 1 2 [6, 7, 24]) (put 6 (powered .ready) (withPlan 2 plan2 base))).linkA.out =
      [.reply { tag := 1, kind := 5, status := .ok, done := true, addressValid := true, body := [0x600, 0x706, 0x1805] }] := by
  decide +kernel

/-- Section 4.9, step 4: HOLD in OFF, at 12,000 ms of credit. -/
theorem test_hold_in_off_phase :
    let x := { running .running 4 .off fun c => { c with credit := 12000 } with dpe := {} }
    let t := after (.hold .a 1 6) (put 6 { x with record := { x.record with phase := .off } } (withPlan 2 plan2 base))
    (t.record 6).state = .held ∧ (t.record 6).holdCause = some .masterHold ∧
      ((t.record 6).run.map fun c => (c.phase, c.credit)) = some (.off, 12000) := by decide +kernel

/-- Section 4.9, step 4: RESUME in OFF. -/
theorem test_resume_in_off_phase :
    let x := { running .held 4 .off fun c => { c with credit := 12000 } with dpe := {} }
    let t := after (.resume .a 1 6) (put 6 { x with record := { x.record with phase := .off } } (withPlan 2 plan2 base))
    (t.record 6).state = .running ∧ ((t.record 6).run.map fun c => (c.phase, c.credit)) = some (.off, 12000) := by decide +kernel

theorem test_abort_in_grading :
    let t := after (.abort .a 1 15) twoGrading
    t.gradingQueue = [⟨4, 2, 1⟩] ∧
      (t.record 15).verdict = some { kind := .aborted, bin := .rework, plan := some 2, at_ := 108000 } := by decide +kernel

/-- R18, R120: the last log entry of a slot held by a HOLD step, which R86 has logged HELD_EXIT, is then ABORTED. -/
theorem test_abort_of_hold_step_is_logged :
    let s := put 6 (running .held 0 .issue) (withPlan 2 { entries := [.hold, .end_], useCount := 1 } base)
    let t := after (.abort .a 1 6) s
    (t.slot 6).test.log = [⟨0, .hold, .aborted, 0, 108000⟩] ∧ t.plans[2].useCount = 0 := by decide +kernel

/-- R76, R36: the slot leaves its pending queue and, within the budget, is admitted at once. -/
theorem test_retest_from_pending :
    let t := after (.retest .a 1 3 2) { put 3 (graded .pending) (withPlan 2 plan2 base) with
      binQueues := base.binQueues.set 1 [8, 3, 5] }
    t.binQueues[1] = [8, 5] ∧ t.plans[2].useCount = 1 ∧ (t.record 3).state = .spinning ∧ (t.record 3).verdict = none ∧
      t.load = 300 := by decide +kernel

/-- Section 7.6, at 2,400.001: SLOT_RESET of the slot in the engine. -/
theorem test_slot_reset_marks_engine :
    let t := after (.slotReset .a 1 9) { put 9 (seated .grading) base with engine := some ⟨9, 2, 2, 1, false, {}⟩ }
    (t.engine.map Grading.discard) = some true ∧ (t.record 9).state = .loaded ∧
      (t.slot 9).sm.declareTimer = some 138000 := by decide +kernel

/-- Section 10.7, at 0. -/
theorem test_direct_op_waits_for_its_end :
    let t := after (.directOp .a 21 5 2 0 0 0 65536) (put 5 (powered .ready) base)
    t.outstanding = [⟨21, 5, false⟩] ∧ t.linkA.out = [] ∧
      ((t.dpe 5).inFlight.map fun f => (f.op, f.tag, f.deadline)) = some (.readVerify 0 65536, 41, 168000) := by decide +kernel

/-- R67: the period below its range, the hot threshold negative, the poll timeout absent. -/
theorem test_set_timing_clamps :
    let t := after (.setTiming .a 1 3 0 0xFFFFFFF0 9) base
    t.timing = { period := 1, hot := 30, poll := 5 } ∧
      t.linkA.out = [.reply { tag := 1, kind := 12, status := .clamped, done := true, addressValid := true, body := [1, 30, 5] }] := by
  decide +kernel

/-- R28: an Isurge written below Irun is taken as Irun. -/
theorem test_set_class_clamps_to_run_current :
    (after (.setClass .a 1 7 (0x00500064) (0x00960190) (0x000F001E) 1 2 3) base).classTable[7] =
      { isurge := 100, irun := 100, iseek := 150, trip := 400, ts := 15, tr := 30, capacity := 4294967298, minRate := 3 } := by
  decide +kernel

/-- R28: BUSY while a slot of the class has its power on. -/
theorem test_set_class_busy :
    (after (.setClass .a 1 0 0 0 0 0 0 0) (put 5 (powered .ready) base)).classTable[0] = {} := by decide +kernel

/-- Section 7.6, at 1,600: the first table is revision 1, and slot 4 is taken under it. -/
theorem test_set_grade_table_takes_head :
    let t := after (.setGradeTable .a 1 0x10010404 0x00280064 0x00030014 0x003C0096 0x01900000) twoGrading
    (t.engine.map fun g => (g.slot, g.revision)) = some (4, 1) ∧ t.gradingQueue = [⟨15, 2, 2⟩] ∧ t.unsetNotice = false ∧
      t.grade = { set := true, revision := 1, wH := 16, wS := 1, wT := 4, hardLimit := 40, slowLimit := 3, seekLimit := 100
                  binCount := 4, thresholds := [20, 60, 150, 400] } := by decide +kernel

/-! ## Requests of the line controller -/

/-- R11, R36: an empty queue within budget and window. -/
theorem test_declare_is_admitted :
    let t := after (.declare .b 1 9 0) (put 9 (seated .loaded) base)
    (t.record 9).state = .spinning ∧ (t.record 9).phase = .surge ∧ t.load = 300 ∧ t.window = [108000] ∧
      (t.slot 9).pau = { surgeTimer := some 123000, readyTimer := some 138000 } := by decide +kernel

/-- R32: an entry filed behind a head is not tested. -/
theorem test_declare_waits_behind_head :
    let t := after (.declare .b 1 9 0) { put 9 (seated .loaded) (put 5 (seated .spinWait) base) with
      admission := [⟨5, .spinup, 104000⟩] }
    t.admission = [⟨5, .spinup, 104000⟩, ⟨9, .spinup, 108000⟩] ∧ (t.record 9).state = .spinWait := by decide +kernel

/-- Section 2.9, at 111,000, with the 1,000 lu in one entry: B = 900 leaves L above B. -/
theorem test_set_line_over_budget :
    let t := after (.setLine .b 1 1 900 0 0 0 0) { base with load := 1000 }
    t.line = { budget := 900, window := 10, windowCount := 4, declareTime := 30, unloadTime := 120 } ∧ t.load = 1000 ∧
      t.attB.rackSet = [.overBudget] ∧ t.linkB.out.getLast? = some (.notice (.attention 108000 (.rack .overBudget))) := by
  decide +kernel

/-- Section 8.12, at 100. -/
theorem test_open_lot_moves_pending :
    let t := after (.openLot .b 1 1 3 0x43544E2D 0x30343137 0x20202020 0x20202020) carton
    (t.lots[0].entries.map fun e => (e.slot, e.state)) = [(3, .unpicked), (8, .unpicked)] ∧ t.binQueues[1] = [] ∧
      (t.record 8).placement = .lot 0 ∧
      t.linkB.out = [.reply { tag := 1, kind := 17, status := .ok, done := true, addressValid := true, body := [0x00030201] }] := by
  decide +kernel

/-- Section 8.12, at 520: capacity 0 is clamped to 1, and one slot fills the lot. -/
theorem test_open_lot_clamps_and_fills :
    let t := after (.openLot .b 1 1 0 0 0 0 0) { carton with binQueues := base.binQueues.set 1 [3] }
    t.lots[0].state = .full ∧ t.attB.rackSet = [.lotFull 0] ∧
      t.linkB.out.head? = some (.reply { tag := 1, kind := 17, status := .clamped, done := true, addressValid := true
                                         body := [0x00010102] }) := by decide +kernel

/-- R149: an OPEN lot with no entries. -/
theorem test_close_lot_empty :
    let t := after (.closeLot .b 1 0) (withLot .open_ [] base)
    t.lots[0] = {} ∧ t.opening = [] := by decide +kernel

/-- Section 8.12, at 220. -/
theorem test_next_pick_names_earliest :
    let t := after (.nextPick .b 1 0) (withLot .full [(3, .unpicked), (8, .unpicked), (19, .unpicked)] (put 3 (graded (.lot 0)) base))
    lotState t = (.full, [(3, .picking), (8, .unpicked), (19, .unpicked)]) ∧ (t.record 3).state = .unloading ∧
      (t.slot 3).sm.unloadTimer = some 228000 ∧
      t.linkB.out = [.reply { tag := 1, kind := 19, status := .ok, done := true, addressValid := true
                              body := [0x80000003, 0x41414141, 0x41414141, 0x41414141, 0x41414141, 0x41414141] }] := by
  decide +kernel

/-- Section 8.12, at 260. -/
theorem test_cancel_pick_returns_entry :
    let x := graded (.lot 0)
    let t := after (.cancelPick .b 1 8) (withLot .full [(3, .picked), (8, .picking), (19, .unpicked)]
      (put 8 { x with record := { x.record with state := .unloading } } base))
    lotState t = (.full, [(3, .picked), (8, .unpicked), (19, .unpicked)]) ∧ (t.record 8).state = .done := by decide +kernel

/-- Section 1.12: slot 4 in a storm, 700 lu besides (here by slots outside the table's eight), slot 2 waiting for QUIET. -/
theorem test_unload_forced_in_storm :
    let s := withPlan 2 plan2 base
    let x := inFlight (.seekStorm 60 .random) .sq (running .running 2 .waitOp)
    let s := put 2 (running .running 1 .waitGroup) (put 4 { x with record := { x.record with phase := .seek } } s)
    let t := after (.unload .b 1 4 1) { s with
      trays := s.trays.set 0 { holders := [⟨4, .storm⟩], queue := [⟨2, .quiet, 5⟩] } }
    t.trays[0] = { holders := [⟨2, .quiet⟩], queue := [] } ∧ t.load = s.load - 50 ∧ (t.record 4).state = .poweringDown ∧
      (t.record 4).purpose = some .unload ∧ (t.dpe 4).port = .resetting := by decide +kernel

/-- R157: from DONE the slot leaves its pending queue. -/
theorem test_unload_from_done :
    let t := after (.unload .b 1 3 0) carton
    t.binQueues[1] = [8] ∧ (t.record 3).state = .unloading ∧
      t.linkB.out = [.reply { tag := 1, kind := 21, status := .ok, done := true, addressValid := true, body := [12] }] := by
  decide +kernel

/-- Section 8.12, at 300: the FULL lot opens, slot 5 flows in, and the lot is FULL again. -/
theorem test_withdraw_reopens_full_lot :
    let s := put 5 (graded .pending) (put 19 (graded (.lot 0)) base)
    let t := after (.withdraw .b 1 19) { withLot .full [(3, .picked), (8, .unpicked), (19, .unpicked)] s with
      binQueues := base.binQueues.set 1 [5] }
    lotState t = (.full, [(3, .picked), (8, .unpicked), (5, .unpicked)]) ∧ (t.record 19).placement = .none ∧
      (t.record 5).placement = .lot 0 ∧ t.binQueues[1] = [] ∧ t.attB.rackSet = [.lotFull 0] := by decide +kernel

/-- Section 8.12, at 320: no OPEN lot of S2. -/
theorem test_requeue_joins_pending :
    let t := after (.requeue .b 1 19) (withLot .full [(3, .picked)] (put 19 (graded .none) base))
    t.binQueues[1] = [19] ∧ (t.record 19).placement = .pending := by decide +kernel

/-- Section 8.12, at 500. -/
theorem test_release_lot :
    let t := after (.releaseLot .b 1 0) (withLot .complete [(3, .picked), (5, .lost)] base)
    t.lots[0] = {} ∧ t.opening = [] := by decide +kernel

/-! ## Links and resets -/

/-- R190, R194, R191: words and CRC by hand: the OK reply to a HOLD of tag 16, and the LINK_ERROR notice of port B at 1000. -/
theorem test_reply_and_notice_words :
    (OutPacket.reply (replyTo .hold 16 .ok true [])).words .a = [0x2060C000, 16, 0xAC78EF50] ∧
      (OutPacket.notice (.attention 1000 (.rack .linkError))).words .b = [0x30100001, 1000, 0x0E000001, 0x7E3867E7] := by
  decide +kernel

/-- R190: HOLD (6) with tag 23, its check word computed apart from the model by a bytewise CRC-32 of the same polynomial. -/
theorem test_packet_receive_is_the_request :
    let s := put 6 (running .running 0 .waitBand) (withPlan 2 plan2 base)
    ((after (.packetReceive .a true [0x10600001, 23, 6, 0xDBE9F465]) s).record 6).state = .held := by decide +kernel

/-- R177: one bit of the check word wrong. -/
theorem test_packet_receive_check_error :
    let s := put 6 (running .running 0 .waitBand) (withPlan 2 plan2 base)
    let t := after (.packetReceive .a true [0x10600001, 23, 6, 0xDBE9F464]) s
    (t.record 6).state = .running ∧ t.attA.rackSet = [.linkError] ∧ t.attB.rackSet = [] := by decide +kernel

/-- R179: the ninth reply waits for the first to be sent. -/
theorem test_packet_sent_lets_request_go :
    let reply (n : Nat) : OutPacket := .reply (replyTo .setMask (BitVec.ofNat 32 n) .ok true [0])
    let s := { base with linkA := { base.linkA with out := (List.range 8).map reply, fifo := [requestPacket .setMask 9 [0]] } }
    let t := after (.packetSent .a) s
    t.linkA.fifo = [] ∧ t.linkA.out.length = 8 ∧ t.linkA.out.getLast? = some (reply 9) := by decide +kernel

/-- R179: of two requests that wait, the older goes, and its reply is the eighth again. -/
theorem test_packet_sent_takes_oldest :
    let reply (n : Nat) : OutPacket := .reply (replyTo .setMask (BitVec.ofNat 32 n) .ok true [0])
    let s := { base with linkA := { base.linkA with
      out := (List.range 8).map reply, fifo := [requestPacket .setMask 9 [0], requestPacket .setMask 10 [0]] } }
    let t := after (.packetSent .a) s
    t.linkA.fifo = [requestPacket .setMask 10 [0]] ∧ t.linkA.out.getLast? = some (reply 9) := by decide +kernel

/-- R189, R194: the POWER_ON notice carries the rack time at which the port went UP. -/
theorem test_link_up_places_power_on :
    (after (.linkUp .b) { State.reset with now := 777 }).linkB =
      { link := .up, powerOnHeld := false, out := [.notice (.resetDone 777 .powerOn)] } := by decide +kernel

/-- Section 10.7, at 1,200. -/
theorem test_link_down_marks_outstanding :
    let t := after (.linkDown .a) { base with outstanding := [⟨21, 5, false⟩] }
    t.outstanding = [⟨21, 5, true⟩] ∧ t.linkA.link = .down := by decide +kernel

/-- R187, R188: the reset's ATTENTION is held while the input is low. -/
theorem test_reset_input_holds_notices :
    let t := after .resetInputAssert (put 6 (running .running 0 .waitBand) (withPlan 2 plan2 base))
    t.linkA.out = [] ∧ t.linkA.held = [.attention 108000 (.slot .held 6)] ∧ t.resetLow = true ∧ t.origin = .resetInput := by
  decide +kernel

/-- R188: RESET_DONE goes ahead of the notices held. -/
theorem test_reset_input_release :
    let t := after .resetInputRelease { base with
      resetLow := true, linkA := { base.linkA with held := [.attention 1 (.slot .held 6)] } }
    t.linkA.out = [.notice (.resetDone 108000 .resetInput), .notice (.attention 1 (.slot .held 6))] ∧ t.resetLow = false := by
  decide +kernel

/-- R6, R189: a strap that reads low, and rack time from 0. -/
theorem test_power_on_reset_straps :
    let t := after (.powerOnReset 0xFFFFFE) base
    (t.record 0).state = .disabled ∧ (t.record 1).state = .empty ∧ t.now = 0 ∧ t.line.budget = 0 ∧ t.linkA.link = .down := by
  decide +kernel

/-! ## Slot events -/

/-- R8: an interruption starts the 500 ms anew. -/
theorem test_presence_change_restarts_debounce :
    (after (.presenceInputChange 20 .present) base).slots[20].sm = { raw := .present, rawSince := 108000 } := by decide +kernel

/-- Section 9.7, at 10.5. -/
theorem test_insertion_raises_present :
    let s := base.setSlot 20 { sm := { raw := .present, rawSince := 107500 } }
    let t := after (.insertionRecognised 20) s
    (t.record 20).state = .loaded ∧ (t.slot 20).sm.declareTimer = some 138000 ∧
      t.linkB.out = [.notice (.attention 108000 (.slot .present 20))] ∧ t.attB.notice = .sent ∧ t.linkA.out = [] := by
  decide +kernel

/-- R8: 499 ms are not enough. -/
theorem test_insertion_needs_500_ms :
    ((after (.insertionRecognised 20) (base.setSlot 20 { sm := { raw := .present, rawSince := 107501 } })).record 20).state =
      .empty := by decide +kernel

/-- Section 8.12, at 415: the mispick completes the lot. -/
theorem test_removal_mispick_completes_lot :
    let x := graded (.lot 0)
    let t := after (.removalRecognised 5) (withLot .full [(3, .picked), (8, .picked), (5, .unpicked)]
      (put 5 { x with sm := { x.sm with raw := .absent, rawSince := 107900 } } base))
    lotState t = (.complete, [(3, .picked), (8, .picked), (5, .lost)]) ∧ t.record 5 = {} ∧
      t.attA.slotSets[5] = [.mispick] ∧ t.attB.rackSet = [.lotComplete 0] := by decide +kernel

/-- Section 8.12, at 240: a pick raises nothing. -/
theorem test_removal_picks :
    let x := graded (.lot 0)
    let t := after (.removalRecognised 3) (withLot .full [(3, .picking), (8, .picking)]
      (put 3 { x with record := { x.record with state := .unloading }, sm := { x.sm with raw := .absent, rawSince := 107900 } } base))
    lotState t = (.full, [(3, .picked), (8, .picking)]) ∧ t.record 3 = {} ∧ t.attA.isEmpty = true ∧ t.attB.isEmpty = true := by
  decide +kernel

/-- R12: a slot declared by nobody goes on with class 0; with B at 0 it waits. -/
theorem test_declare_timeout_takes_class_0 :
    let s := { base with line := { base.line with budget := 0 } }
    let t := after (.declareTimeout 9) (s.setSlot 9
      { record := { state := .loaded, presence := .present }, sm := { raw := .present, declareTimer := some 108000 } })
    (t.record 9).cls = some 0 ∧ (t.record 9).state = .spinWait ∧ t.admission = [⟨9, .spinup, 108000⟩] ∧
      t.headWait = some 168000 := by decide +kernel

theorem test_unload_overdue_raises :
    let x := graded .none
    let t := after (.unloadOverdue 3) (put 3 { x with
      record := { x.record with state := .unloading }, sm := { x.sm with unloadTimer := some 108000 } } base)
    t.attB.slotSets[3] = [.unloadOverdue] ∧ (t.record 3).state = .unloading ∧ (t.slot 3).sm.unloadTimer = none := by
  decide +kernel

/-! ## Power events -/

/-- R44: trip 400 lu; 400 is not above it. -/
theorem test_conversion_at_trip :
    let t := after (.currentConversion 5 400) (put 5 (powered .ready) base)
    (t.record 5).current = 400 ∧ (t.record 5).state = .ready := by decide +kernel

theorem test_conversion_above_trip :
    let t := after (.currentConversion 5 401) (put 5 (powered .ready) base)
    (t.record 5).state = .done ∧ (t.record 5).verdict.bind (fun v => v.faultCause) = some .overcurrent ∧ t.load = 0 ∧
      (t.record 5).placement = .pending ∧ t.binQueues[6] = [5] := by decide +kernel

/-- Section 2.9 before 109,200: slot 5 in SURGE, 500 lu besides, slots 9 and 10 waiting. -/
def rail : State :=
  let x := { powered .spinning with dpe := { port := .starting }, pau := { surgeTimer := some 121000, readyTimer := some 136000 } }
  let s := put 5 { x with record := { x.record with phase := .surge, identity := none } } base
  let s := [0, 1, 2, 3, 12].foldl (fun s i => put i (powered .ready) s) s
  let s := put 9 (seated .spinWait) (put 10 (seated .spinWait) s)
  { s with
    now := 109200, window := [100200, 103500, 106000], headSince := 106000, headWait := some 166000
    admission := [⟨9, .spinup, 104000⟩, ⟨10, .spinup, 104300⟩] }

/-- Section 2.9, at 109,200: slot 9 is admitted, slot 10 waits for the budget. -/
theorem test_ready_report_admits_next :
    let t := after (.driveReadyReport 5) rail
    t.load = 900 ∧ t.window = [100200, 103500, 106000, 109200] ∧ t.admission = [⟨10, .spinup, 104300⟩] ∧
      t.headSince = 109200 ∧ (t.record 9).state = .spinning ∧ (t.record 5).state = .identifying ∧
      (t.slot 9).pau = { surgeTimer := some 124200, readyTimer := some 139200 } := by decide +kernel

/-- R40: at the surge timer's expiry the same fall of L. -/
theorem test_surge_timer_lowers_load :
    let t := after (.surgeTimerExpiry 5) { rail with now := 121000, window := [] }
    t.load = 900 ∧ (t.record 5).phase = .run ∧ (t.record 5).state = .spinning ∧ (t.record 9).state = .spinning := by decide +kernel

theorem test_ready_timeout_faults :
    let t := after (.readyTimeout 5) { rail with now := 136000, line := { rail.line with budget := 0 } }
    (t.record 5).state = .done ∧ (t.record 5).verdict.bind (fun v => v.faultCause) = some .noReady ∧ t.load = 500 ∧
      (t.dpe 5).port = .off := by decide +kernel

theorem test_head_wait_expiry :
    let t := after .headWaitExpiry { rail with now := 166000 }
    t.attB.rackSet = [.admissionStalled] ∧ t.headWait = none ∧ t.admission.length = 2 := by decide +kernel

/-- Section 2.9, at 110,200, with the load of that moment: slot 10 is admitted, slot 12 waits. -/
theorem test_window_entry_aged_admits :
    let t := after .windowEntryAged { rail with
      now := 110200, load := 700, window := [100200, 103500, 106000, 109200]
      admission := [⟨10, .spinup, 104300⟩, ⟨12, .seek, 108500⟩] }
    t.load = 1000 ∧ t.window = [103500, 106000, 109200, 110200] ∧ t.admission = [⟨12, .seek, 108500⟩] ∧ t.headSince = 110200 := by
  decide +kernel

/-! ## Drive ports -/

/-- Section 6.9: the class's rate and the sweep of zone 3; at 163 s of section 3.10 the tag in the register is 43. -/
def sweeping (start count : Nat) (test : TestRecord) (f : RunContext → RunContext := id) : State :=
  let x := inFlight (.readVerify start count) .sq
    (running .running 1 .waitOp fun c => f { c with cursor := start, band := .in_ })
  { put 17 { x with test := test } (withPlan 2 plan2 base) with
    classTable := base.classTable.set 0 { minRate := 1000000 } }

/-- Section 6.9: segment A is not slow, and the next one runs to the zone's end. -/
theorem test_completion_segment_a :
    let t := after (.driveCompletion 17 (answer .good fun c => { c with
      sectorsDone := 268435456, softErrors := 3, duration := 250000 })) (sweeping 1500000000 268435456 {})
    (t.slot 17).test.zones[3] = { covered := 268435456, soft := 3 } ∧
      ((t.dpe 17).inFlight.map fun f => (f.op, f.tag)) = some (.readVerify 1768435456 231564544, 42) := by decide +kernel

/-- Section 6.9: the reissued segment B is slow, and reaches the zone's last sector. -/
theorem test_completion_segment_b :
    let t := after (.driveCompletion 17 (answer .media fun c => { c with
        sectorsDone := 231564544, hardErrors := 1, softErrors := 14, duration := 240000 }))
      (sweeping 1768435456 231564544 { zones := (Vector.replicate 16 {}).set 3 { covered := 268435456, soft := 3 } }
        fun c => { c with retry := true })
    (t.slot 17).test.zones[3] = { covered := 500000000, hard := 1, soft := 17, slow := 1, swept := true } ∧
      ((t.record 17).run.map fun c => (c.cursor, c.retry)) = some (2000000000, false) := by decide +kernel

/-- Section 3.10, at 163 s. -/
theorem test_operation_timeout_sets_retry :
    let t := after (.operationTimeout 17) (sweeping 1768435456 231564544 {})
    (t.dpe 17).port = .resetting ∧ (t.dpe 17).resetTimer = some 113000 ∧ (t.dpe 17).inFlight = none ∧
      ((t.record 17).run.map fun c => (c.retry, c.cursor)) = some (true, 1768435456) := by decide +kernel

/-- Section 3.10, at 164 s: the pending poll goes ahead of the segment. -/
theorem test_port_link_up_issues_poll :
    let x := powered .ready
    let t := after (.portLinkUp 14) (put 14 { x with
      dpe := { x.dpe with port := .resetting, resetTimer := some 112000, pollPending := true, tag := 43 } } base)
    ((t.dpe 14).inFlight.map fun f => (f.op, f.tag, f.requester, f.deadline)) = some (.healthPoll, 44, .patrol, 113000) ∧
      (t.dpe 14).pollPending = false ∧ (t.dpe 14).port = .busy := by decide +kernel

/-- Section 3.10, its end: no link-up within 5 s. -/
theorem test_port_reset_timeout_faults :
    let x := powered .ready
    let t := after (.portResetTimeout 14) (put 14 { x with dpe := { x.dpe with port := .resetting, resetTimer := some 108000 } } base)
    (t.record 14).state = .done ∧ (t.record 14).verdict.bind (fun v => v.faultCause) = some .portDead := by decide +kernel

/-- Section 3.10, at 0: the poll waits for the segment, and the timer restarts with 30 s. -/
theorem test_patrol_expiry_forms_poll :
    let x := inFlight (.readVerify 0 65536) .sq (running .running 1 .waitOp)
    let t := after (.patrolTimerExpiry 14) (put 14 { x with dpe := { x.dpe with patrolTimer := some 108000 } } (withPlan 2 plan2 base))
    (t.dpe 14).pollPending = true ∧ (t.dpe 14).patrolTimer = some 138000 ∧ (t.dpe 14).port = .busy := by decide +kernel

/-- Section 3.10, at 60 s: at 57 °C the timer restarts with 15 s. -/
theorem test_patrol_expiry_hot :
    let x := inFlight (.readVerify 0 65536) .sq (running .running 1 .waitOp)
    let t := after (.patrolTimerExpiry 14) (put 14 { x with
      record := { x.record with temperature := some 57 }, dpe := { x.dpe with patrolTimer := some 108000 } } (withPlan 2 plan2 base))
    (t.dpe 14).patrolTimer = some 123000 := by decide +kernel

/-! ## Step events -/

/-- Section 4.9, at 650 s: the SOAK is logged, and the quiet SWEEP waits for the storm of slot 3. -/
theorem test_soak_credit_ends_step :
    let x := running .running 0 .waitBand fun c => { c with credit := 600000, band := .in_ }
    let s := put 6 { x with record := { x.record with temperature := some 49 } } (withPlan 2 plan2 base)
    let t := after (.soakCreditReached 6) { s with trays := s.trays.set 0 { holders := [⟨3, .storm⟩] } }
    (t.slot 6).test.log = [{ step := 0, kind := .soak, outcome := .done, credit := 600, at_ := 108000 }] ∧
      ((t.record 6).run.map fun c => (c.step, c.phase, c.band)) = some (1, .waitGroup, .in_) ∧
      (t.trays[0]).queue = [⟨6, .quiet, 108000⟩] := by decide +kernel

/-- Section 4.9, at U + 108: the SPINUP is filed and admitted at once. -/
theorem test_off_time_spins_up :
    let x := { running .running 4 .off fun c => { c with credit := 20000 } with dpe := {} }
    let t := after (.offTimeReached 6) (put 6 { x with record := { x.record with phase := .off } } (withPlan 2 plan2 base))
    ((t.record 6).run.map RunContext.phase) = some .surge ∧ (t.record 6).phase = .surge ∧ t.load = 300 ∧
      (t.dpe 6).port = .starting := by decide +kernel

/-- R90: a stall in SOAK holds the slot at once. -/
theorem test_stall_holds :
    let t := after (.stallTimerExpiry 6) (put 6 (running .running 0 .waitBand fun c => { c with
      band := .out, outSince := some 5, stallTimer := some 108000 }) (withPlan 2 plan2 base))
    (t.record 6).state = .held ∧ (t.record 6).holdCause = some .thermalStall ∧ t.attA.slotSets[6] = [.held] := by decide +kernel

/-! ## Grading -/

/-- The test record of section 7.4. -/
def record74 : TestRecord :=
  let z (hard soft slow : Nat) : Zone := { covered := 262144000, hard := hard, soft := soft, slow := slow, swept := true }
  { zones := ((Vector.replicate 16 (z 0 5 0)).set 7 (z 2 30 1)).set 12 (z 0 90 4), seekErrors := 37, thermal := 6 }

/-- The grade table of section 7.4. -/
def table74 : GradeTable :=
  { set := true, revision := 3, wH := 16, wS := 1, wT := 4, hardLimit := 40, slowLimit := 3, seekLimit := 100, binCount := 4
    thresholds := [20, 60, 150, 400] }

/-- Section 7.4 and its table of changes. -/
theorem test_grade_worked_case :
    grade table74 record74 = (.s4, 97, { demoted := true }) ∧ grade { table74 with slowLimit := 4 } record74 = (.s3, 97, {}) ∧
      grade { table74 with hardLimit := 1 } record74 = (.reject, 97, { hardLimit := true }) ∧
      grade { table74 with wT := 0 } record74 = (.s4, 73, { demoted := true }) := by decide +kernel

/-- Section 7.4: the verdict of slot 13. -/
theorem test_grading_completion_worked_case :
    let t := after .gradingCompletion { put 13 (seated .grading) base with
      grade := table74, engine := some ⟨13, 6, 3, 107997, false, record74⟩ }
    (t.record 13).verdict = some { kind := .graded, bin := .s4, score := some 97, flags := { demoted := true }, revision := some 3
                                   plan := some 6, at_ := 108000 } ∧
      t.engine = none ∧ t.binQueues[3] = [13] := by decide +kernel

/-- Section 7.6, at 2,400.004: a marked grading makes no verdict. -/
theorem test_grading_completion_discarded :
    let t := after .gradingCompletion { put 9 (seated .loaded) base with engine := some ⟨9, 2, 2, 1, true, {}⟩ }
    t.engine = none ∧ (t.record 9).state = .loaded ∧ (t.record 9).verdict = none := by decide +kernel

/-! ## Witnesses

One for each obligation that has hypotheses: states and operands that meet them, for each clause at a value where it begins to
apply. A slot is 0 or 23 where the range matters. -/

theorem enabled_of {s : State} {p : Port} {c : Cause} (h : (s.att p).mask.getLsbD c.maskBit = true) : s.Enabled p c := h

theorem not_enabled_of {s : State} {p : Port} {c : Cause} (h : (s.att p).mask.getLsbD c.maskBit = false) : ¬ s.Enabled p c :=
  fun g => by rw [State.Enabled, h] at g; exact Bool.noConfusion g

def completes : Host.Outcome State Fault Refusal → Bool
  | .next _ => true
  | .fault _ => false
  | .refused _ => false

theorem next_of {o : Host.Outcome State Fault Refusal} (h : completes o = true) : ∃ t, o = .next t := by
  cases o with
  | next t => exact ⟨t, rfl⟩
  | fault _ => exact Bool.noConfusion h
  | refused _ => exact Bool.noConfusion h

def planned : State := withPlan 2 plan2 base

/-- The test station's port with `n` packets in its FIFO and `m` replies unsent. -/
def queued (n m : Nat) : State :=
  { base with linkA := { base.linkA with
    fifo := List.replicate n (requestPacket .setMask 9 [0]), out := List.replicate m (.reply (replyTo .setMask 9 .ok true [0])) } }

/-- Both links DOWN. -/
def dark : State := { base with linkA := {}, linkB := {} }

/-- The line controller has a cause pending. -/
def noticed : State := { base with attB := { base.attB with rackSet := [.linkError], notice := .sent } }

theorem witness_StepTakesFrontCommand :
    ({ base with pending := [.linkDown .a, .gradingCompletion] } : State).pending = .linkDown .a :: [.gradingCompletion] := by
  decide +kernel

theorem witness_EmptyQueueCountsOneMillisecond :
    base.pending = [] ∧ (put 23 (running .running 0 .waitBand fun c => { c with credit := 4294967295 }) planned).accrues 23 = true ∧
      base.accrues 0 = false := by decide +kernel

theorem witness_StepKeepsInvariant :
    let s := { put 23 (running .running 0 .waitBand) planned with pending := [.hold .a 1 23] }
    s.Invariant ∧ ∃ t, step s = .next t := ⟨invariant_of (by decide +kernel), next_of (by decide +kernel)⟩

theorem witness_StepKeepsOrder :
    let x := running .running 0 .waitBand
    let s := { put 0 { x with record := { x.record with identity := none } } (put 23 (graded (.lot 0))
      (withLot .open_ [(7, .picked), (23, .unpicked)] (withPlan 2 { plan2 with useCount := 1 } base))) with
        pending := [.nextPick .b 1 0] }
    s.Orderly ∧ ∃ t, step s = .next t := ⟨orderly_of (by decide +kernel), next_of (by decide +kernel)⟩

theorem witness_RecordWordsRoundTrip :
    (StepEntry.repeat_ 4294967295 255).clamp = .repeat_ 4294967295 255 ∧ (∀ e ∈ plan2.entries, e.clamp = e) ∧
      ({ irun := 4000, isurge := 4000, iseek := 4000, trip := 6000, ts := 30, tr := 60, capacity := 2 ^ 48 - 1
         minRate := 2 ^ 32 - 1 } : ClassEntry).InRange ∧
      ({ irun := 1, isurge := 1, iseek := 1, trip := 1, ts := 1, tr := 5 } : ClassEntry).InRange ∧
      ({ table74 with binCount := 1, thresholds := [65535] } : GradeTable).InRange ∧
      ({ table74 with binCount := 5, thresholds := [0, 1, 2, 3, 4] } : GradeTable).InRange ∧
      (StepEntry.soak 1 none 0).band = none ∧ (StepEntry.soak 1 none 0).kind ≠ .sweep ∧ (StepEntry.soak 1 none 0).kind ≠ .seekstorm ∧
      (StepEntry.powerCycle 1).kind ∉ [StepKind.soak, .sweep, .seekstorm] ∧ StepEntry.hold.kind ∈ [StepKind.notify, .hold, .end_] :=
  ⟨by decide, by decide, by unfold ClassEntry.InRange; decide, by unfold ClassEntry.InRange; decide,
    by unfold GradeTable.InRange; decide, by unfold GradeTable.InRange; decide, by decide⟩

theorem witness_PacketsHaveTheirLayout :
    let long := Instr.loadPlan .a 9 7 (List.replicate 85 ⟨0, 0, 0⟩)
    long.wf = true ∧ requestOf long = some (.a, .loadPlan, 9, 7 :: List.replicate 255 0) ∧
      (Instr.rackReset .b 9).wf = true ∧ requestOf (.rackReset .b 9) = some (.b, .rackReset, 9, []) ∧
      ((queued 7 0).link .a).link = .up ∧ ((queued 7 0).link .a).fifo.length = 7 ∧
      ({ queued 7 0 with resetLow := true } : State).resetLow = true ∧ ((queued 7 8).link .a).unsent = 8 := by decide +kernel

theorem witness_CausesAreRecordedAndNoticed :
    base.Enabled .a (.slot .fault 23) ∧ ¬ base.Enabled .a (.slot .present 0) ∧
      ((base.att .a).rackSet.Nodup ∧ ∀ i : SlotId, (base.att .a).slotSets[i].Nodup) ∧
      base.AttentionSafe ∧ (base.att .a).isEmpty = true ∧
      noticed.AttentionSafe ∧ noticed.Enabled .b (.rack (.lotFull 7)) ∧ (noticed.att .b).isEmpty = false :=
  ⟨enabled_of (by decide), not_enabled_of (by decide), by decide +kernel, attentionSafe_of (by decide +kernel), by decide +kernel,
    attentionSafe_of (by decide +kernel), enabled_of (by decide +kernel), by decide +kernel⟩

theorem witness_SetMaskDropsDisabledCauses : noticed.Clear .b ∧ noticed.AttentionSafe :=
  ⟨clear_of (by decide +kernel), attentionSafe_of (by decide +kernel)⟩

theorem witness_ReadIsJudgedAndReturnsRecords :
    (noticed.Clear .b ∧ noticed.AttentionSafe ∧ Collection.ofCode (small 0) = some .slotRecord ∧
      small 23 < (noticed.records .b 0 .slotRecord).length ∧ Collection.ofCode (small 13) = some .rackStatus ∧
      small 0 < (noticed.records .b 0 .rackStatus).length) ∧
    (let s := withLot .open_ [(3, .unpicked), (8, .unpicked)] base
     s.Clear .a ∧ Collection.ofCode (small 14) = none ∧ Collection.ofCode (small 11) = some .lotEntries ∧ bits 0x800 8 8 = 8 ∧
      bits 60 0 8 = 60 ∧ (bits 0x73B 8 8 = (7 : LotId).val ∧ bits 0x73B 0 8 < 60) ∧
      (bits 1 8 8 = (0 : LotId).val ∧ bits 1 0 8 < s.lots[0].entries.length) ∧ Collection.ofCode (small 0) = some .slotRecord ∧
      (s.records .a 0 .slotRecord).length ≤ small 24) :=
  ⟨⟨clear_of (by decide +kernel), attentionSafe_of (by decide +kernel), by decide +kernel⟩, clear_of (by decide +kernel),
    by decide +kernel⟩

theorem readPacket_packetWords (h0 h1 : Word) (body : List Word) :
    readPacket (packetWords h0 h1 body) = some
      { ptype := BitVec.ofNat 4 (bits h0 28 4), kind := BitVec.ofNat 8 (bits h0 20 8), len := BitVec.ofNat 9 (bits h0 0 9), tag := h1
        body := body } := by
  simp [readPacket, packetWords]

theorem witness_PacketsAreJudged :
    (dark.link .a).link = .down ∧ (base.link .a).link = .up ∧ readPacket [0x10600001, 23, 6, 0xDBE9F464] = none ∧
      ((queued 8 0).link .a).link = .up ∧ ((queued 8 0).link .a).fifo.length ≥ 8 ∧ base.Clear .b ∧
      (Instr.hold .b 23 6).wf = true ∧ requestOf (.hold .b 23 6) = some (.b, .hold, 23, [6]) ∧
      ReqKind.hold.acceptedOn .b = false ∧
      (readPacket (packetWords 0x20600001 23 [6])).any (fun x => x.ptype ≠ 1) ∧
      (readPacket (packetWords 0x10600000 23 [])).any (fun x => ReqKind.ofCode x.kind.toNat = some .hold ∧
        ReqKind.hold.acceptedOn .a = true ∧ ReqKind.hold.fits x.body.length = false) ∧ base.Clear .a ∧
      (readPacket (packetWords 0x11900000 23 [])).any (fun x => ReqKind.ofCode x.kind.toNat = none) ∧
      (readPacket (packetWords 0x10600002 23 [6])).any (fun x => x.len.toNat ≠ x.body.length) ∧
      ∃ x, readPacket (packetWords 0x10600101 23 (List.replicate 257 6)) = some x ∧ 256 < x.body.length :=
  ⟨by decide, by decide, by decide +kernel, by decide, by decide, clear_of (by decide +kernel), by decide, by decide, by decide,
    by decide +kernel, by decide +kernel, clear_of (by decide +kernel), by decide +kernel, by decide +kernel, ⟨_, readPacket_packetWords .., by rw [List.length_replicate]; decide⟩⟩

theorem witness_RequestsWaitAndGo :
    (Instr.setMask .a 9 0).wf = true ∧ requestOf (.setMask .a 9 0) = some (.a, .setMask, 9, [0]) ∧ (dark.link .a).link = .down ∧
      ((queued 8 0).link .a).fifo.length = 8 ∧ ((queued 7 8).link .a).fifo.length = 7 ∧ ((queued 7 8).link .a).unsent = 8 ∧
      ({ queued 7 0 with resetLow := true } : State).resetLow = true ∧ (base.link .a).fifo = [] ∧
      ((queued 1 8).link .a).fifo = [requestPacket .setMask 9 [0]] ∧
      ((queued 1 8).modLink .a fun l => { l with fifo := [], out := l.out.drop 1 }).Clear .a ∧
      (((queued 2 7).link .a).fifo = requestPacket .setMask 9 [0] :: [requestPacket .setMask 9 [0]] ∧ (queued 2 7).resetLow = false ∧
        ((queued 2 7).link .a).unsent < 8) ∧ base.Clear .a :=
  ⟨by decide, by decide, by decide, by decide, by decide, by decide +kernel, by decide, by decide, by decide,
    clear_of (by decide +kernel), by decide +kernel, clear_of (by decide +kernel)⟩

theorem witness_LinkGoesUpAndDown :
    base.AttentionSafe ∧ dark.AttentionSafe ∧ (base.link .a).link = .up ∧ (dark.link .a).link = .down ∧
      (dark.link .a).powerOnHeld = true :=
  ⟨attentionSafe_of (by decide +kernel), attentionSafe_of (by decide +kernel), by decide⟩

theorem witness_RackResetRequest :
    let s := put 0 (running .running 0 .waitBand) (put 23 (seated .grading) planned)
    let t := { s with linkA := {} }
    let w := { put 5 (seated .spinWait) (put 23 (seated .spinWait) base) with
      line := { budget := 300 }, admission := [⟨23, .spinup, 5⟩, ⟨5, .spinup, 6⟩] }
    (∀ z ∈ [w, storming, s], z.Clear .a) ∧ (∀ z ∈ [s, t], z.Clear .b) ∧ w.rebuilt = [5, 23] ∧
      (storming.seekReleased.record 23).state = .spinning ∧ storming.rebuilt = [5] ∧ s.linkA.link = .up ∧ s.linkB.link = .up ∧
      (s.record 0).state = .running ∧ (s.record 23).state = .grading ∧ s.grade.set = false ∧ t.linkA.link = .down :=
  ⟨clears_of (by decide +kernel), clears_of (by decide +kernel), by decide +kernel⟩

theorem witness_ResetInputHoldsAndReleases :
    let low (p : Port) := ({ queued 0 0 with resetLow := true } : State).modLink p fun l =>
      { l with fifo := [requestPacket .setMask 9 [0]] }
    let released := ({ queued 0 0 with
      linkA := { base.linkA with out := [.notice (.resetDone 108000 .resetInput)] }
      linkB := { base.linkB with out := [.notice (.resetDone 108000 .resetInput)] } } : State)
    base.AttentionSafe ∧ base.resetLow = false ∧ storming.AttentionSafe ∧ storming.resetLow = false ∧ ({ base with resetLow := true } : State).linkA.fifo = [] ∧
      (low .a).AttentionSafe ∧ (low .a).resetLow = true ∧ ((low .a).link .a).fifo = [requestPacket .setMask 9 [0]] ∧
      ((low .a).link .b).fifo = [] ∧ requestOf (.setMask .a 9 0) = some (.a, .setMask, 9, [0]) ∧ released.Clear .a ∧ released.Clear .b :=
  ⟨attentionSafe_of (by decide +kernel), by decide, attentionSafe_of (by decide +kernel), by decide +kernel, by decide,
    attentionSafe_of (by decide +kernel), by decide, by decide, by decide, by decide, clear_of (by decide +kernel), clear_of (by decide +kernel)⟩

/-! Chapters 1 and 2. -/

/-- A slot in state `st` for purpose `p`. -/
def purposed (p : Purpose) (x : Slot) : Slot := { x with record := { x.record with purpose := some p } }

/-- The removal of the slot's drive has been steady for 100 ms at 108,000. -/
def pulled (x : Slot) : Slot := { x with sm := { x.sm with raw := .absent, rawSince := 107900 } }

def inState (st : SlotState) (x : Slot) : Slot := { x with record := { x.record with state := st } }

def verify : DirectOp := { kind := .readVerify, start := 0, count := 65536, clamped := false }

/-- A direct operation of slot `i` waits, and its reply, of tag 9, is outstanding beside another slot's. -/
def asked (i : SlotId) (s : State) : State :=
  { s.modDpe i fun e => { e with direct := some verify } with outstanding := [⟨7, 5, false⟩, ⟨9, i, false⟩] }

/-- What a teardown that ends a direct operation of slot `i` with WRONG_STATE meets. -/
def Asked (i : SlotId) (s : State) : Prop :=
  (s.dpe i).directOp = some verify ∧ s.outstanding.find? (fun o => o.slot == i) = some ⟨9, i, false⟩ ∧ (s.link .a).link = .up

theorem asked_of {i : SlotId} {s : State}
    (h : (s.dpe i).directOp = some verify ∧ s.outstanding.find? (fun o => o.slot == i) = some ⟨9, i, false⟩ ∧ (s.link .a).link = .up) :
    Asked i s := h

/-- Slot 23 powers down for UNLOAD, changed by `f`. -/
def leaving (f : Slot → Slot := id) : State := put 23 (f (purposed .unload (powered .poweringDown))) planned

theorem witness_SlotRequestsAreChecked :
    let s (x : Slot) := put 23 x planned
    let x : RunContext := { plan := 2, step := 0, phase := .waitBand, stepStart := 100000 }
    (∀ z ∈ [base, s (seated .disabled)], z.Clear .a) ∧ base.Clear .b ∧
      requestOf (.directOp .a 1 24 1 0 0 0 0) = some (.a, .directOp, 1, [24, 1, 0, 0, 0, 0]) ∧
      ReqKind.directOp.acceptedOn .a = true ∧ 24 ≤ small 24 ∧ small 23 = (23 : SlotId).val ∧
      ((s (seated .disabled)).record 23).state = .disabled ∧ requestOf (.unload .b 1 23 0) = some (.b, .unload, 1, [23, 0]) ∧
      ReqKind.unload.acceptedOn .b = true ∧ (base.record 23).state = .empty ∧ ((s (powered .ready)).record 23).state = .ready ∧
      ((s (running .running 0 .waitBand)).record 23).state = .running ∧
      ((s (running .running 0 .waitBand)).record 23).run = some x ∧ x.holdPending = none ∧
      ((s (running .running 0 .waitBand)).record 23).custody = .test ∧ (0 : Word).getLsbD 0 = false ∧
      ((s (graded .none)).record 23).state = .done ∧ ((s (graded .none)).record 23).placement = .none ∧
      ((s (graded .pending)).record 23).placement ≠ .none ∧ ((s (inState .unloading (graded .none))).record 23).state = .unloading ∧
      ((s (purposed .unload (powered .poweringDown))).record 23).state = .poweringDown ∧
      ((s (purposed .unload (powered .poweringDown))).record 23).purpose = some .unload :=
  ⟨clears_of (by decide +kernel), clear_of (by decide +kernel), by decide +kernel⟩

theorem witness_PresenceIsDebounced :
    let s (st : SlotState) (since : RackTime) := base.setSlot 23 { record := { state := st }, sm := { raw := .present, rawSince := since } }
    (s .empty 107500).AttentionSafe ∧ (s .unloading 107500).AttentionSafe ∧
      (((s .empty 107500).record 23).state = .empty ∧ ((s .empty 107500).record 23).presence = .absent ∧
        ((s .empty 107500).slot 23).sm.raw = .present ∧ 500 ≤ age (s .empty 107500).now ((s .empty 107500).slot 23).sm.rawSince) ∧
      ((s .unloading 107500).record 23).state ≠ .empty ∧ ((s .unloading 107500).record 23).presence = .absent ∧
      ¬ 500 ≤ age (s .empty 107501).now ((s .empty 107501).slot 23).sm.rawSince ∧
      ((s .disabled 107500).record 23).state = .disabled ∧ (base.slot 0).sm.raw = .absent :=
  ⟨attentionSafe_of (by decide +kernel), attentionSafe_of (by decide +kernel), by decide +kernel⟩

theorem witness_RemovalEmptiesSlot :
    let s (x : Slot) := put 0 (pulled x) planned
    let steady (s : State) := (s.record 0).presence = .present ∧ (s.slot 0).sm.raw = .absent ∧ 100 ≤ age s.now (s.slot 0).sm.rawSince
    (∀ z ∈ [s (seated .loaded), s (inFlight (.seekStorm 60 .random) .sq (running .running 2 .waitOp)),
        s (inState .unloading (graded .none)), asked 0 (s (powered .ready))], z.Invariant) ∧
      Asked 0 (asked 0 (s (powered .ready))) ∧ steady (s (seated .loaded)) ∧
      steady (s (inFlight (.seekStorm 60 .random) .sq (running .running 2 .waitOp))) ∧
      ((s (running .running 2 .waitOp)).record 0).powered = true ∧ steady (s (inState .unloading (graded .none))) ∧
      ((s (inState .unloading (graded .none))).record 0).state ∉ [SlotState.loaded, .spinWait, .spinning, .identifying, .ready,
        .running, .held, .poweringDown, .grading] ∧
      (base.record 0).presence = .absent ∧ steady (asked 0 (s (powered .ready))) :=
  ⟨invariants_of (by decide +kernel), asked_of (by decide +kernel), by decide +kernel⟩

theorem witness_RemovalFromLot :
    let s (st : LotState) (es : List (SlotId × EntryState)) (x : Slot) := put 23 (pulled x) (withLot st es base)
    let last := [(8, .lost), (23, .picking)]
    let pick (es : List (SlotId × EntryState)) (st : LotState) := s st es (inState .unloading (graded (.lot 0)))
    let mispick (p : Placement) := s .full [(8, .picked), (23, .unpicked)] (graded p)
    let gone (s : State) := s.lots[(0 : LotId)].entries.all fun e => e.slot = 23 ∨ e.state = .picked ∨ e.state = .lost
    let at_ (s : State) := (s.record 23).presence = .present ∧ (s.slot 23).sm.raw = .absent ∧ 100 ≤ age s.now (s.slot 23).sm.rawSince
    (pick last .full).AttentionSafe ∧ (mispick .pending).AttentionSafe ∧ (s .full last (inState .unloading (graded .none))).AttentionSafe ∧
      at_ (pick last .full) ∧ ((pick last .full).record 23).state = .unloading ∧ ((pick last .full).record 23).placement = .lot 0 ∧
      ((pick last .full).lots[(0 : LotId)].state = .full ∧ gone (pick last .full) = true) ∧
      ((pick last .closed).lots[(0 : LotId)].state = .closed ∧ gone (pick last .closed) = true) ∧
      ((pick last .open_).lots[(0 : LotId)].state = .open_ ∧ gone (pick last .open_) = true) ∧
      gone (pick [(23, .picking), (8, .unpicked)] .full) = false ∧
      ((s .full last (inState .unloading (graded .none))).record 23).placement = .none ∧
      at_ (mispick (.lot 0)) ∧ ((mispick (.lot 0)).record 23).state = .done ∧ ((mispick (.lot 0)).record 23).placement = .lot 0 ∧
      gone (mispick (.lot 0)) = true ∧ ((mispick .pending).record 23).placement = .pending ∧
      ((mispick .pending).record 23).verdict.map Verdict.bin = some .s2 ∧ ((mispick .none).record 23).placement = .none :=
  ⟨attentionSafe_of (by decide +kernel), attentionSafe_of (by decide +kernel), attentionSafe_of (by decide +kernel), by decide +kernel⟩

theorem witness_IndicatorShowsState :
    let s (x : Slot) := put 23 x base
    let bad (k : VerdictKind) (b : Bin) := s { graded .none with record := { (graded .none).record with
      verdict := some { kind := k, bin := b, at_ := 5 } } }
    (base.record 0).state = .empty ∧ ((s (seated .loaded)).record 23).state = .loaded ∧
      ((s (powered .ready)).record 23).state = .ready ∧ ((s (inState .unloading (graded .none))).record 23).state = .unloading ∧
      ((bad .fault .rework).record 23).state = .done ∧ (∃ v ∈ ((bad .fault .rework).record 23).verdict, v.kind = .fault) ∧
      (∃ v ∈ ((bad .graded .reject).record 23).verdict, v.bin = .reject) ∧
      (¬ ∃ v ∈ ((s (graded .none)).record 23).verdict, v.kind = .fault ∨ v.bin = .reject) := by decide +kernel

theorem witness_DeclareFilesSpinUp :
    let s := put 23 (seated .loaded) base
    let behind := { s with admission := [⟨0, .spinup, 5⟩] }
    s.Clear .b ∧ behind.Clear .b ∧ small 23 = (23 : SlotId).val ∧ (s.record 23).state = .loaded ∧ (s.record 23).phase = .off ∧
      8 ≤ small 8 ∧ small 7 = (7 : ClassId).val ∧ ((put 23 (powered .ready) base).record 23).state ≠ .loaded ∧
      behind.admission ≠ [] ∧ s.admission = [] ∧
      700 + s.classTable[(7 : ClassId)].isurge ≤ s.line.budget ∧ ¬ 701 + s.classTable[(7 : ClassId)].isurge ≤ s.line.budget ∧
      ({ s with load := 700, window := [1, 2, 3] } : State).window.length < s.line.windowCount ∧
      ¬ ({ s with window := [1, 2, 3, 4] } : State).window.length < s.line.windowCount :=
  ⟨clear_of (by decide +kernel), clear_of (by decide +kernel), by decide +kernel⟩

theorem witness_SlotResetReturnsToLoaded :
    let s := put 23 (running .running 2 .waitOp) planned
    let d := put 23 (graded .pending) base
    (∀ z ∈ [s, d, put 23 (graded (.lot 7)) base, asked 23 s], z.Invariant) ∧ (∀ z ∈ [s, d, asked 23 s], z.Clear .a) ∧
      Asked 23 (asked 23 s) ∧ small 23 = (23 : SlotId).val ∧ (s.record 23).state = .running ∧ (s.record 23).inLot = false ∧
      (d.record 23).placement = .pending ∧ (d.record 23).inLot = false ∧
      ((put 23 (graded (.lot 7)) base).record 23).placement = .lot 7 :=
  ⟨invariants_of (by decide +kernel), clears_of (by decide +kernel), asked_of (by decide +kernel), by decide +kernel⟩

theorem witness_HeadsAreTestedAndAdmitted :
    (let s (load : Nat) (w : List RackTime) := { put 23 (seated .spinWait) base with
       load := load, window := w, admission := [⟨23, .spinup, 5⟩] }
     base.admission = [] ∧ (s 700 []).admission = ⟨23, .spinup, 5⟩ :: [] ∧
       (s 701 []).line.budget < (s 701 []).load + (s 701 []).increment ⟨23, .spinup, 5⟩ ∧
       (s 700 [1, 2, 3, 4]).line.windowCount ≤ (s 700 [1, 2, 3, 4]).window.length ∧
       (s 700 [1, 2, 3]).load + (s 700 [1, 2, 3]).increment ⟨23, .spinup, 5⟩ ≤ (s 700 [1, 2, 3]).line.budget ∧
       (s 700 [1, 2, 3]).window.length < (s 700 [1, 2, 3]).line.windowCount ∧
       (s 701 []).testHead.admission = ⟨23, .spinup, 5⟩ :: []) ∧
    (let s := put 23 (seated .spinWait) planned
     let off := { running .running 4 .waitSpinup with dpe := {} }
     let cycle := put 0 { off with record := { off.record with phase := .off } } planned
     let storm (b : BandState) := put 0 (running .running 2 .waitLoad fun c => { c with band := b }) planned
     let c : RunContext := { plan := 2, step := 2, phase := .waitLoad, stepStart := 100000, band := .out }
     ((s.record 23).state = .spinWait ∧ (s.record 23).phase = .off) ∧
       ((cycle.record 0).state = .running ∧ (cycle.record 0).phase = .off) ∧
       ((storm .out).record 0).state = .running ∧ ((storm .out).record 0).phase = .run ∧ ((storm .out).record 0).run = some c ∧
       (storm .out).stepEntry 0 = some (.seekstorm 90 .random none 0) ∧
       ((storm .in_).record 0).run = some { c with band := .in_ }) :=
  ⟨by decide +kernel, by decide +kernel⟩

theorem witness_SettingsAreTaken : noticed.Clear .b ∧ noticed.Clear .a ∧ (1 : Word).getLsbD 0 = true ∧
    max 0 (min 65535 (65536 : Word).toNat) ≠ (65536 : Word).toNat ∧ ({ base with load := 66000 } : State).Clear .b :=
  ⟨clear_of (by decide +kernel), clear_of (by decide +kernel), by decide +kernel, by decide +kernel, clear_of (by decide +kernel)⟩

theorem witness_SetClassReplacesEntry :
    let s := put 23 (powered .ready) base
    let h := { put 23 (seated .spinWait) base with admission := [⟨23, .spinup, 5⟩] }
    s.Clear .a ∧ h.Clear .a ∧ 8 ≤ small 8 ∧ small 7 = (7 : ClassId).val ∧ small 0 = (0 : ClassId).val ∧
      ((s.record 23).cls = some 0 ∧ (s.record 23).phase ≠ .off) ∧
      (¬ ∃ i : SlotId, (h.record i).cls = some 0 ∧ (h.record i).phase ≠ .off) ∧
      (∃ e ∈ h.admission.head?, (h.record e.slot).cls = some 0) :=
  ⟨clear_of (by decide +kernel), clear_of (by decide +kernel), by decide +kernel⟩

theorem witness_ConversionStoresAndTrips :
    let s := put 23 (powered .ready) base
    let u := leaving
    (∀ z ∈ [s, u, base.setSlot 0 (seated .disabled)], z.Invariant) ∧
      ((base.setSlot 0 (seated .disabled)).record 0).state = .disabled ∧ (s.record 23).phase ≠ .off ∧
      (s.classEntry 23).trip < (max 0 (min 65535 (401 : Int))).toNat ∧
      ¬ (s.classEntry 23).trip < (max 0 (min 65535 (400 : Int))).toNat ∧ (s.record 23).takesFault = true ∧
      (u.record 23).state = .poweringDown ∧ (u.record 23).purpose = some .unload ∧ (u.record 23).phase ≠ .off :=
  ⟨invariants_of (by decide +kernel), by decide +kernel⟩

theorem witness_TimersExpire :
    (let x := seated .loaded
     let s (d : RackTime) := put 23 { x with sm := { x.sm with declareTimer := some d } } base
     let y := inState .unloading (graded .none)
     let u (d : RackTime) := put 0 { y with sm := { y.sm with unloadTimer := some d } } base
     (s 108000).AttentionSafe ∧ (u 108000).AttentionSafe ∧
       (((s 108000).record 23).state = .loaded ∧ (((s 108000).slot 23).sm.declareTimer).any (reached (s 108000).now) = true) ∧
       (((s 108001).slot 23).sm.declareTimer.any (reached (s 108001).now) = false) ∧
       (s 108000).admission = [] ∧
       ({ s 108000 with load := 701 } : State).line.budget < 701 + (s 108000).classTable[(0 : ClassId)].isurge ∧
       700 + (s 108000).classTable[(0 : ClassId)].isurge ≤ (s 108000).line.budget ∧ ((s 108000).record 23).phase = .off ∧
       ({ s 108000 with window := [1, 2, 3] } : State).window.length < (s 108000).line.windowCount ∧
       ¬ ({ s 108000 with window := [1, 2, 3, 4] } : State).window.length < (s 108000).line.windowCount ∧
       { s 108000 with admission := [⟨0, .spinup, 5⟩] }.admission ≠ [] ∧
       (((u 108000).record 0).state = .unloading ∧ (((u 108000).slot 0).sm.unloadTimer).any (reached (u 108000).now) = true) ∧
       (((u 108001).slot 0).sm.unloadTimer.any (reached (u 108001).now) = false)) ∧
    (let x := { powered .spinning with dpe := { port := .starting }, pau := { surgeTimer := some 108000, readyTimer := some 108001 } }
     let s := put 23 { x with record := { x.record with phase := .surge } } base
     let r := put 23 { x with pau := { readyTimer := some 108000 } } base
     let w (t : RackTime) := { base with window := [t, 107000] }
     let v := leaving fun x => { x with pau := { readyTimer := some 108000 } }
     v.Invariant ∧ s.Invariant ∧ r.Invariant ∧ base.AttentionSafe ∧
       ((((v.slot 23).pau.readyTimer).any (reached v.now) = true) ∧ (v.record 23).feelsFault = true ∧
         (v.record 23).state = .poweringDown ∧ (v.record 23).purpose = some .unload) ∧
       ((((s.slot 23).pau.surgeTimer).any (reached s.now) = true) ∧ (s.record 23).phase = .surge) ∧
       ((s.slot 23).pau.readyTimer.any (reached s.now) = false) ∧
       ((((r.slot 23).pau.readyTimer).any (reached r.now) = true) ∧ (r.record 23).feelsFault = true) ∧
       ((({ base with headWait := some 108000 } : State).headWait).any (reached base.now) = true) ∧ base.window = [] ∧
       (w 98000).line.window * 1000 ≤ age (w 98000).now 98000 ∧ age (w 98001).now 98001 < (w 98001).line.window * 1000) :=
  ⟨⟨attentionSafe_of (by decide +kernel), attentionSafe_of (by decide +kernel), by decide +kernel⟩,
    ⟨invariant_of (by decide +kernel), invariant_of (by decide +kernel), invariant_of (by decide +kernel),
      attentionSafe_of (by decide +kernel), by decide +kernel⟩⟩

/-! Chapter 3. -/

/-- The engine of a slot, changed. -/
def port (f : Engine → Engine) (x : Slot) : Slot := { x with dpe := f x.dpe }

/-- The operation of `inFlight op who`. -/
def op41 (op : Operation) (who : Requester) : InFlight :=
  { op := op, tag := 41, requester := who, issued := 90000, deadline := 108000 }

theorem witness_DirectOpIsJudgedInOrder :
    let s := put 23 (powered .ready) base
    let h := put 23 (powered .held) base
    let b := put 23 (port (fun e => { e with direct := some verify }) (powered .ready)) base
    (∀ z ∈ [s, h, b], z.Clear .a) ∧ small 23 = (23 : SlotId).val ∧ (s.record 23).state ≠ .disabled ∧
      (small 0 ≠ 1 ∧ small 0 ≠ 2 ∧ small 0 ≠ 5) ∧ (base.record 0).state = .empty ∧ (s.record 23).state = .ready ∧
      ((h.record 23).state = .held ∧ (h.dpe 23).ready = true) ∧ (b.dpe 23).directOp ≠ none ∧ (s.dpe 23).directOp = none ∧
      8000000000 ≤ bits 1 0 16 * 2 ^ 32 + (0xDCD65000 : Word).toNat ∧
      ¬ 8000000000 ≤ bits 1 0 16 * 2 ^ 32 + (0xDCD64FFF : Word).toNat :=
  ⟨clears_of (by decide +kernel), by decide +kernel⟩

theorem witness_ReadyReportBringsDriveUp :
    let s (x : Slot) := put 23 x planned
    let starting (x : Slot) := port (fun _ => { port := .starting }) x
    let wait (p : LoadPhase) (x : Slot) : Slot := { starting x with
      record := { x.record with phase := p }, pau := { surgeTimer := if p = .surge then some 120000 else none, readyTimer := some 130000 } }
    let resetting := port (fun e => { e with port := .resetting, ready := false }) (powered .ready)
    let again (p : LoadPhase) (x : Slot) := port (fun _ => { port := .resetting }) (wait p x)
    let lone (e : Engine) := s { port (fun _ => e) (powered .running) with
      record := { (running .running 4 .surge).record with phase := .surge }, pau := {} }
    let c : RunContext := { plan := 2, step := 4, phase := .surge, stepStart := 100000 }
    (∀ z ∈ [s (again .surge (powered .spinning)), s (again .run (running .running 4 .surge)), (lone { port := .starting }),
        (lone { port := .idle }), base, s (powered .ready), s resetting, s (starting (powered .ready)),
        s (wait .surge (powered .spinning)), s (wait .run (running .running 4 .surge))], z.Invariant) ∧
      ((s (again .surge (powered .spinning))).dpe 23).port = .resetting ∧
      ((s (again .surge (powered .spinning))).slot 23).pau.readyTimer.isSome = true ∧
      ((s (again .surge (powered .spinning))).record 23).state = .spinning ∧
      ((s (again .run (running .running 4 .surge))).record 23).state = .running ∧
      ((s (again .run (running .running 4 .surge))).record 23).run = some c ∧
      (∀ x ∈ (s (again .surge (powered .spinning))).admission, x.slot ≠ 23) ∧
      ((lone { port := .starting }).slot 23).pau.readyTimer = none ∧ ((lone { port := .starting }).record 23).phase = .surge ∧
      ((lone { port := .starting }).dpe 23).port ≠ .off ∧ ((lone { port := .idle }).dpe 23).port ≠ .off ∧
      (base.dpe 23).port = .off ∧ ((s (powered .ready)).dpe 23).port = .idle ∧
      ((s (powered .ready)).slot 23).pau.readyTimer = none ∧ ((s (powered .ready)).record 23).phase ≠ .surge ∧
      ((s resetting).dpe 23).port = .resetting ∧ ((s (starting (powered .ready))).dpe 23).port = .starting ∧
      ((s (wait .surge (powered .spinning))).slot 23).pau.readyTimer.isSome = true ∧
      ((s (wait .surge (powered .spinning))).dpe 23).port = .starting ∧
      ((s (wait .surge (powered .spinning))).record 23).state = .spinning ∧
      ((s (wait .run (running .running 4 .surge))).record 23).run = some c ∧ c.phase = .surge ∧
      ((s (wait .run (running .running 4 .surge))).record 23).state = .running ∧
      ((s (wait .run (running .running 4 .surge))).dpe 23).ownerOp = none :=
  ⟨invariants_of (by decide +kernel), by decide +kernel⟩

theorem witness_ResetEndsAndPollsFallDue :
    let s (f : Engine → Engine) := put 23 (port f (powered .ready)) base
    let dead := fun e : Engine => { e with port := .resetting, resetTimer := some 108000 }
    let alive := fun e : Engine => { e with port := .resetting, resetTimer := some 108001 }
    let due := fun e : Engine => { e with patrolTimer := some 108000 }
    (∀ z ∈ [leaving (port dead), s dead, s alive, s due], z.Invariant) ∧
      ((leaving (port dead)).dpe 23).resetTimer.any (reached (leaving (port dead)).now) = true ∧
      ((leaving (port dead)).record 23).feelsFault = true ∧ ((s due).dpe 23).port ≠ .resetting ∧
      ((s dead).dpe 23).port = .resetting ∧ ((s dead).dpe 23).resetTimer.any (reached (s dead).now) = true ∧
      ((s dead).record 23).feelsFault = true ∧ ((s alive).dpe 23).resetTimer.any (reached (s alive).now) = false ∧
      ((s due).dpe 23).patrolTimer.any (reached (s due).now) = true ∧
      ((s dead).dpe 23).patrolTimer.any (reached (s dead).now) = false :=
  ⟨invariants_of (by decide +kernel), by decide +kernel⟩

theorem witness_PatrolPollIsTaken :
    let s (m : Nat) := put 23 (port (fun e => { e with misses := m }) (inFlight .healthPoll .patrol (powered .ready))) base
    let f := op41 .healthPoll .patrol
    let l := leaving (inFlight .healthPoll .patrol)
    (∀ z ∈ [l, s 1, s 2, base], z.Invariant) ∧ (∀ z ∈ [l, s 1, s 2], z.Orderly) ∧
      (l.dpe 23).inFlight = some f ∧ (l.record 23).feelsFault = true ∧
      (base.dpe 23).inFlight = none ∧ ((s 1).dpe 23).inFlight = some f ∧ f.tag ≠ (answer .good fun c => { c with tag := 40 }).tag ∧
      f.tag = (answer .good).tag ∧ f.requester = .patrol ∧ (answer .fault).status = .fault ∧
      (answer .good fun c => { c with faultCodes := [1] }).faultCodes ≠ [] ∧ ((s 1).record 23).feelsFault = true ∧
      ((answer .aborted).status = .aborted ∧ (answer .aborted).faultCodes = []) ∧ ((s 1).dpe 23).misses < 2 ∧
      ((s 2).dpe 23).inFlight = some f ∧ 2 ≤ ((s 2).dpe 23).misses ∧ ((s 2).record 23).feelsFault = true ∧
      (answer .good).status = .good ∧ (answer .good).faultCodes = [] ∧ ((s 1).record 23).run = none :=
  ⟨invariants_of (by decide +kernel), orderlies_of (by decide +kernel), by decide +kernel⟩

theorem witness_PatrolPollMovesBand :
    let s (k : Nat) (ph : StepPhase) (b : BandState) :=
      put 23 (inFlight .healthPoll .patrol (running .running k ph fun c => { c with band := b })) planned
    let x (k : Nat) (ph : StepPhase) (b : BandState) : RunContext := { plan := 2, step := k, phase := ph, stepStart := 100000, band := b }
    let h := put 23 (inFlight .healthPoll .patrol (running .held 1 .waitGroup fun c => { c with band := .in_ })) planned
    (∀ z ∈ [h, s 1 .waitBand .out, s 1 .issue .in_, s 2 .waitBand .out, s 0 .waitBand .in_], z.Invariant) ∧
      (h.record 23).state = .held ∧ (h.record 23).run = some (x 1 .waitGroup .in_) ∧
      (h.stepEntry 23).map StepEntry.kind = some .sweep ∧ (h.dpe 23).inFlight = some (op41 .healthPoll .patrol) ∧
      ((s 1 .waitBand .out).dpe 23).inFlight = some (op41 .healthPoll .patrol) ∧
      (op41 .healthPoll .patrol).tag = (answer .good).tag ∧ (answer .media).status = .media ∧ (answer .good).faultCodes = [] ∧
      ((s 1 .waitBand .out).record 23).state = .running ∧ ((s 1 .waitBand .out).record 23).run = some (x 1 .waitBand .out) ∧
      ((s 1 .waitBand .out).stepEntry 23).map StepEntry.kind = some .sweep ∧
      ((s 2 .waitBand .out).stepEntry 23).map StepEntry.kind = some .seekstorm ∧
      ((s 1 .issue .in_).record 23).run = some (x 1 .issue .in_) ∧
      ((s 0 .waitBand .in_).record 23).run = some (x 0 .waitBand .in_) ∧
      ((s 0 .waitBand .in_).stepEntry 23).map StepEntry.stall = some 900 :=
  ⟨invariants_of (by decide +kernel), by decide +kernel⟩

theorem witness_DirectOperationIsAnswered :
    let s (link : LinkPort) (mark : Bool) := { put 23 (inFlight (.readVerify 0 65536) (.direct verify) (powered .ready)) base with
      linkA := link, outstanding := [⟨7, 0, false⟩, ⟨9, 23, mark⟩] }
    let f := op41 (.readVerify 0 65536) (.direct verify)
    (s base.linkA false).AttentionSafe ∧ (s {} true).AttentionSafe ∧ ((s base.linkA false).dpe 23).inFlight = some f ∧
      f.requester = .direct verify ∧ (s base.linkA false).outstanding.find? (fun o => o.slot == 23) = some ⟨9, 23, false⟩ ∧
      (s {} true).outstanding.find? (fun o => o.slot == 23) = some ⟨9, 23, true⟩ ∧ f.tag = (answer .good).tag ∧
      reached (s {} true).now f.deadline = true ∧ reached ({ s {} true with now := 107999 } : State).now f.deadline = false :=
  ⟨attentionSafe_of (by decide +kernel), attentionSafe_of (by decide +kernel), by decide +kernel⟩

theorem witness_IdentityIsChecked :
    let x := inFlight .identify .sm (powered .identifying)
    let s := put 23 { x with record := { x.record with identity := none, startPlan := some 2 } } planned
    let r := put 23 { x with record := { x.record with identity := none } } planned
    let q := put 23 (inFlight .identify .sq (running .running 4 .reidentify)) planned
    let twin := put 0 (graded .none) r
    let with_ (i : Identity) := answer .good fun c => { c with identity := i }
    (∀ z ∈ [s, r, q, twin], z.Invariant) ∧ (s.dpe 23).inFlight = some (op41 .identify .sm) ∧
      (q.dpe 23).inFlight = some (op41 .identify .sq) ∧ (op41 .identify .sm).tag = (answer .good).tag ∧
      (s.record 23).state = .identifying ∧ (q.record 23).state = .running ∧ (answer .aborted).status = .aborted ∧
      (with_ { drive with capacity := 1048575 }).identity.capacity.toNat < 1048576 ∧
      ¬ (with_ { drive with capacity := 1048576 }).identity.capacity.toNat < 1048576 ∧ (q.record 23).identity = some drive ∧
      drive.serial ≠ (with_ { drive with serial := Vector.replicate 20 90 }).identity.serial ∧
      (twin.record 0).identity = some drive ∧ (0 : SlotId) ≠ 23 ∧ (r.record 23).startPlan = none ∧
      (s.record 23).startPlan = some 2 ∧ (r.record 23).identity = none :=
  ⟨invariants_of (by decide +kernel), by decide +kernel⟩

theorem witness_StandbyEndsInPowerCut :
    let s (p : Purpose) := put 23 (purposed p (inFlight .standby .sm (powered .poweringDown))) planned
    let v : Verdict := { kind := .aborted, bin := .rework, plan := some 2, at_ := 5 }
    let a := (s .abort).modSm 23 fun m => { m with carriedVerdict := some v }
    let c (h : Option HoldPending) := put 23 (inFlight .standby .sq (running .running 4 .waitOp fun c => { c with holdPending := h })) planned
    let x : RunContext := { plan := 2, step := 4, phase := .waitOp, stepStart := 100000 }
    let set := { s .grade with grade := table74 }
    let d := asked 23 (c none)
    (∀ z ∈ [d, s .grade, set, a, s .unload, c none, c (some .masterHold)], z.Invariant) ∧ (d.dpe 23).direct = some verify ∧
      d.outstanding.find? (fun o => o.slot == 23) = some ⟨9, 23, false⟩ ∧ (d.link .a).link = .up ∧ (s .grade).unsetNotice = false ∧
      v.kind = .aborted ∧ ((s .grade).dpe 23).inFlight = some (op41 .standby .sm) ∧
      ((c none).dpe 23).inFlight = some (op41 .standby .sq) ∧ ((s .grade).record 23).phase ≠ .off ∧
      (op41 .standby .sm).tag = (answer .fault).tag ∧ reached (s .grade).now (op41 .standby .sm).deadline = true ∧
      ((s .grade).record 23).state = .poweringDown ∧ ((s .grade).record 23).purpose = some .grade ∧ (s .grade).grade.set = false ∧
      (set.engine = none ∧ set.grade.set = true ∧ set.gradingQueue = []) ∧ (a.record 23).purpose = some .abort ∧
      (a.slot 23).sm.carriedVerdict = some v ∧ ((s .unload).record 23).purpose = some .unload ∧
      ((c none).record 23).state = .running ∧ ((c none).stepEntry 23).map StepEntry.kind = some .powerCycle ∧
      ((c none).record 23).run = some x ∧ ((c (some .masterHold)).record 23).run = some { x with holdPending := some .masterHold } ∧
      (∀ e ∈ (c none).admission, e.slot ≠ 23) ∧ 23 ∉ ((c none).trays[trayOf 23]).slots ∧ ((c none).record 23).phase ≠ .seek :=
  ⟨invariants_of (by decide +kernel), by decide +kernel⟩

theorem witness_SequencerOperationsAreAccounted :
    let s (start count : Nat) := sweeping start count {}
    let x : RunContext := { plan := 2, step := 1, phase := .waitOp, stepStart := 100000, cursor := 7500000000, band := .in_ }
    let storm (credit : Nat) := put 17 (inFlight (.seekStorm 60 .random) .sq
      (running .running 2 .waitOp fun c => { c with credit := credit })) planned
    let y : RunContext := { plan := 2, step := 2, phase := .waitOp, stepStart := 100000, credit := 90000 }
    (∀ z ∈ [s 7500000000 500000000, storm 90000, storm 89999], z.Invariant) ∧
      ((s 7500000000 500000000).dpe 17).inFlight = some (op41 (.readVerify 7500000000 500000000) .sq) ∧
      (op41 (.readVerify 7500000000 500000000) .sq).tag = (answer .good).tag ∧
      ((s 7500000000 500000000).record 17).state = .running ∧ ((s 7500000000 500000000).record 17).run = some x ∧
      (answer .media).status = .media ∧ (answer .good fun c => { c with sectorsDone := 500000000 }).sectorsDone.toNat = 500000000 ∧
      (answer .good).sectorsDone.toNat ≠ 500000000 ∧ 8000000000 ≤ x.cursor + 500000000 ∧
      ((storm 90000).dpe 17).inFlight = some (op41 (.seekStorm 60 .random) .sq) ∧ ((storm 90000).record 17).run = some y ∧
      (storm 90000).stepEntry 17 = some (.seekstorm 90 .random none 0) ∧ 90 * 1000 ≤ y.credit ∧
      ((storm 89999).record 17).run = some { y with credit := 89999 } ∧ (answer .fault).status = .fault :=
  ⟨invariants_of (by decide +kernel), by decide +kernel⟩

theorem witness_TimeoutsResetOrFault :
    let s (op : Operation) (who : Requester) (x : Slot) := put 23 (inFlight op who x) planned
    let poll (m : Nat) := s .healthPoll .patrol (port (fun e => { e with misses := m }) (powered .ready))
    let x : RunContext := { plan := 2, step := 1, phase := .waitOp, stepStart := 100000 }
    let seg (r : Bool) := s (.readVerify 0 65536) .sq (running .running 1 .waitOp fun c => { c with retry := r })
    let l := leaving fun x => port (fun e => { e with misses := 2 }) (inFlight .healthPoll .patrol x)
    (∀ z ∈ [l, s .identify .sm (powered .identifying), poll 1, poll 2, seg false, seg true], z.Invariant) ∧
      (l.dpe 23).inFlight = some (op41 .healthPoll .patrol) ∧ (l.record 23).feelsFault = true ∧
      ((s .identify .sm (powered .identifying)).dpe 23).inFlight = some (op41 .identify .sm) ∧
      ((s .identify .sm (powered .identifying)).record 23).feelsFault = true ∧
      reached (poll 1).now (op41 .healthPoll .patrol).deadline = true ∧
      reached ({ poll 1 with now := 107999 } : State).now (op41 .healthPoll .patrol).deadline = false ∧
      ((s (.seekStorm 60 .random) .sq (running .running 2 .waitOp)).dpe 23).inFlight = some (op41 (.seekStorm 60 .random) .sq) ∧
      ((s (.seekStorm 60 .random) .sq (running .running 2 .waitOp)).record 23).feelsFault = true ∧ ((poll 1).dpe 23).misses < 2 ∧
      2 ≤ ((poll 2).dpe 23).misses ∧ ((poll 2).record 23).feelsFault = true ∧
      ((seg true).dpe 23).inFlight = some (op41 (.readVerify 0 65536) .sq) ∧ ((seg true).record 23).state = .running ∧
      ((seg false).record 23).run = some x ∧ ((seg true).record 23).run = some { x with retry := true } :=
  ⟨invariants_of (by decide +kernel), by decide +kernel⟩

/-! Chapters 4 and 5. -/

/-- A plan with one step of each kind that takes no time, and steps without quiet flag or band. -/
def plan5 : Plan :=
  { entries := [.hold, .repeat_ 0 1, .notify 9,
      .sweep { mode := .writeVerify, pattern := 0xA5, segment := 1, quiet := false, band := none, stall := 0, timeout := 60 }, .end_]
    useCount := 1 }

/-- Slot 23 at step `k` of plan 5. -/
def at5 (st : SlotState) (k : Nat) (ph : StepPhase) (f : RunContext → RunContext := id) : State :=
  put 23 (running st k ph fun c => f { c with plan := 5 }) (withPlan 5 plan5 base)

def context (p : PlanId) (k : Nat) (ph : StepPhase) : RunContext := { plan := p, step := k, phase := ph, stepStart := 100000 }

theorem witness_OperationsAreOfferedAndIssued :
    (let s (f : Engine → Engine) := put 23 (port f (running .running 1 .issue)) planned
     (base.dpe 0).port ≠ .idle ∧ ((s fun e => { e with pollPending := true }).dpe 23).port = .idle ∧
       ((s fun e => { e with pollPending := true }).dpe 23).pollPending = true ∧
       ((s fun e => { e with direct := some verify }).dpe 23).pollPending = false ∧
       ((s fun e => { e with direct := some verify }).dpe 23).direct = some verify ∧
       ((s fun e => { e with ownerOp := some ⟨.sq, .readVerify 0 65536, 300⟩ }).dpe 23).direct = none ∧
       ((s fun e => { e with ownerOp := some ⟨.sq, .readVerify 0 65536, 300⟩ }).dpe 23).ownerOp =
         some ⟨.sq, .readVerify 0 65536, 300⟩ ∧
       ((s id).dpe 23).ownerOp = none) ∧
    (let sweep := plan5.entries[3]?
     (planned.plans[2].entries[1]?).map StepEntry.kind = some .sweep ∧
       ((at5 .running 3 .waitBand fun c => { c with band := .out }).record 23).run =
         some { context 5 3 .waitBand with band := .out } ∧
       (at5 .running 3 .issue).stepEntry 23 = sweep ∧ sweep.map StepEntry.kind = some .sweep ∧
       ((put 0 (running .running 2 .waitLoad) planned).record 0).run = some (context 2 2 .waitLoad) ∧
       (put 0 (running .running 2 .waitLoad) planned).stepEntry 0 = some (.seekstorm 90 .random none 0)) := by decide +kernel

theorem witness_LoadPlanReplacesPlan :
    base.Clear .a ∧ plan2Words.length ≤ 85 ∧ 8 ≤ small 8 ∧ small 7 = (7 : PlanId).val ∧
      (plan2Words.mapM readStep).isSome = true ∧ ([⟨0x90000000, 0, 0⟩] : List StepWords).mapM readStep = none ∧
      (withPlan 7 plan5 base).Clear .a ∧ (withPlan 7 plan5 base).plans[(7 : PlanId)].useCount ≠ 0 ∧
      base.plans[(7 : PlanId)].useCount = 0 ∧ (plan2Words.mapM readStep).map List.getLast? = some (some .end_) ∧
      ([] : List StepWords).mapM readStep = some [] ∧
      ((List.replicate 33 ⟨0x80000000, 0, 0⟩ : List StepWords).mapM readStep).map List.length = some 33 :=
  ⟨clear_of (by decide +kernel), by decide, by decide, by decide, by decide, by decide, clear_of (by decide +kernel), by decide +kernel⟩

theorem witness_StartRunsReadySlots :
    let s := put 23 (powered .ready) (put 0 (powered .ready) planned)
    let all : List Word := (List.range 24).map (BitVec.ofNat 32)
    s.Clear .a ∧ ([] : List Word).length ≤ 255 ∧ (all ≠ [] ∧ all.length ≤ 24 ∧ (all.map small).Nodup) ∧
      ¬ (([23, 23] : List Word).map small).Nodup ∧ (List.replicate 25 (0 : Word)).length = 25 ∧ 8 ≤ small 8 ∧
      small 2 = (2 : PlanId).val ∧ small 7 = (7 : PlanId).val ∧ s.plans[(7 : PlanId)].entries = [] ∧
      s.plans[(2 : PlanId)].entries ≠ [] ∧ (s.record 23).state = .ready ∧ (s.record 1).state ≠ .ready :=
  ⟨clear_of (by decide +kernel), by decide +kernel⟩

theorem witness_TimedStepBegins :
    let s (k : Nat) (h : Option HoldPending) := put 23 (running .running k .issue fun c => { c with holdPending := h }) planned
    ((s 0 none).record 23).state = .running ∧ ((s 0 none).record 23).run = some (context 2 0 .issue) ∧
      ((s 0 (some .masterHold)).record 23).run = some { context 2 0 .issue with holdPending := some .masterHold } ∧
      ((s 0 none).plans[(2 : PlanId)].entries.map StepEntry.kind) =
        [.soak, .sweep, .seekstorm, .repeat_, .powerCycle, .notify, .end_] ∧
      (plan2.entries[0]?).map StepEntry.stall = some 900 ∧ ((at5 .running 0 .issue).record 23).run = some (context 5 0 .issue) ∧
      ((at5 .running 0 .issue).plans[(5 : PlanId)].entries[3]?).map StepEntry.kind = some .sweep := by decide +kernel

theorem witness_ZeroTimeStepsChain :
    let s := at5 .running 0 .issue fun c => { c with repeats := Vector.replicate 32 1, holdPending := some .thermalStall }
    let x : RunContext := { context 5 0 .issue with repeats := Vector.replicate 32 1, holdPending := some .thermalStall }
    (s.record 23).run = some x ∧ s.plans[(5 : PlanId)].entries[0]? = some .hold ∧
      s.plans[(5 : PlanId)].entries[1]? = some (.repeat_ 0 1) ∧ s.plans[(5 : PlanId)].entries[2]? = some (.notify 9) ∧
      s.plans[(5 : PlanId)].entries[4]? = some .end_ ∧ ¬ x.repeats[1]?.getD 0 < 1 ∧
      (context 5 0 .issue).repeats[1]?.getD 0 < 1 ∧ 1 < 32 ∧
      ((∀ e ∈ s.admission, e.slot ≠ 23) ∧ 23 ∉ (s.trays[trayOf 23]).slots) ∧ (s.record 23).phase ≠ .seek := by decide +kernel

theorem witness_StepTimesAreReached :
    let s (k : Nat) (ph : StepPhase) (n : Nat) := put 23 (running .running k ph fun c => { c with
      credit := n, stallTimer := some 108000 }) planned
    let x (k : Nat) (ph : StepPhase) (n : Nat) : RunContext := { context 2 k ph with credit := n, stallTimer := some 108000 }
    let busy := put 23 (inFlight (.readVerify 0 65536) .sq (running .running 1 .waitOp fun c => { c with stallTimer := some 108000 })) planned
    (s 0 .waitBand 600000).AttentionSafe ∧ (s 4 .off 20000).AttentionSafe ∧ busy.AttentionSafe ∧
      ((s 0 .waitBand 600000).record 23).run = some (x 0 .waitBand 600000) ∧
      ((s 0 .waitBand 599999).record 23).run = some (x 0 .waitBand 599999) ∧
      (s 0 .waitBand 600000).stepEntry 23 = some (.soak 600 (some ⟨40, 50⟩) 900) ∧ 600 * 1000 ≤ (x 0 .waitBand 600000).credit ∧
      ((s 4 .off 20000).record 23).run = some (x 4 .off 20000) ∧ (s 4 .off 20000).stepEntry 23 = some (.powerCycle 20) ∧
      ((s 0 .waitBand 0).record 23).state = .running ∧ reached (s 0 .waitBand 0).now 108000 = true ∧
      reached (s 0 .waitBand 0).now 108001 = false ∧ (busy.dpe 23).inFlight = some (op41 (.readVerify 0 65536) .sq) ∧
      (op41 (.readVerify 0 65536) .sq).requester = .sq ∧ ((s 0 .waitBand 0).dpe 23).inFlight = none :=
  ⟨attentionSafe_of (by decide +kernel), attentionSafe_of (by decide +kernel), attentionSafe_of (by decide +kernel),
    by decide +kernel⟩

theorem witness_EntryToHeldGivesBack :
    let x := running .running 2 .waitOp
    let s := put 23 { x with record := { x.record with phase := .seek } } planned
    let s := { s with trays := s.trays.set 2 { holders := [⟨23, .storm⟩], queue := [⟨16, .quiet, 5⟩] } }
    (∀ z ∈ [s, put 23 (running .running 4 .surge) planned, at5 .running 0 .issue], z.Invariant) ∧ s.Enabled .a (.slot .held 23) ∧
      (s.record 23).state = .running ∧ (s.record 23).run = some (context 2 2 .waitOp) ∧
      s.stepEntry 23 = some (.seekstorm 90 .random none 0) ∧
      (put 23 (running .running 4 .surge) planned).stepEntry 23 = some (.powerCycle 20) ∧
      (at5 .running 0 .issue).stepEntry 23 = some .hold :=
  ⟨invariants_of (by decide +kernel), enabled_of (by decide +kernel), by decide +kernel⟩

theorem witness_HoldAndResume :
    let s (st : SlotState) (k : Nat) (ph : StepPhase) (h : Option HoldPending) :=
      put 23 (running st k ph fun c => { c with holdPending := h }) planned
    let busy := put 23 (inFlight (.readVerify 0 65536) .sq (running .running 1 .waitOp)) planned
    (∀ z ∈ [s .held 0 .waitBand none, s .running 4 .surge none, busy, at5 .held 3 .issue], z.Clear .a) ∧
      small 23 = (23 : SlotId).val ∧ ((s .held 0 .waitBand none).record 23).state = .held ∧
      ((s .held 0 .waitBand none).record 23).run = some (context 2 0 .waitBand) ∧
      ((s .running 4 .surge none).record 23).state = .running ∧
      ((s .running 4 .surge none).record 23).run = some (context 2 4 .surge) ∧
      (busy.dpe 23).inFlight.map InFlight.requester = some .sq ∧
      ((s .running 1 .waitOp (some .thermalStall)).record 23).run = some { context 2 1 .waitOp with holdPending := some .thermalStall } ∧
      ((s .running 1 .waitOp (some .masterHold)).record 23).run = some { context 2 1 .waitOp with holdPending := some .masterHold } ∧
      ((s .held 0 .waitBand none).stepEntry 23).map StepEntry.kind = some .soak ∧
      ((s .held 1 .waitGroup none).stepEntry 23).map StepEntry.kind = some .sweep ∧
      ((s .held 2 .waitGroup none).stepEntry 23).map StepEntry.kind = some .seekstorm ∧
      ((s .held 4 .surge none).stepEntry 23).map StepEntry.kind = some .powerCycle ∧
      (at5 .held 0 .issue).stepEntry 23 = some .hold ∧ ((at5 .held 3 .issue).record 23).run = some (context 5 3 .issue) :=
  ⟨clears_of (by decide +kernel), by decide +kernel⟩

theorem witness_AbortMakesVerdict :
    let g := { put 23 (seated .grading) base with engine := some ⟨23, 6, 1, 5, false, {}⟩ }
    let s := put 23 (running .running 0 .waitBand) planned
    let x := { running .held 4 .off with dpe := {} }
    let h := put 23 { x with record := { x.record with phase := .off } } planned
    let busy := put 23 (inFlight (.readVerify 0 65536) .sq (running .running 1 .waitOp)) planned
    (∀ z ∈ [g, s, h, busy], z.Invariant) ∧ (∀ z ∈ [g, s, h], z.Clear .a) ∧ small 23 = (23 : SlotId).val ∧
      (g.record 23).state = .grading ∧ (∀ e ∈ g.gradingQueue, e.slot ≠ 23) ∧ g.engine.map Grading.slot = some 23 ∧
      (s.record 23).run = some (context 2 0 .waitBand) ∧ (s.record 23).state = .running ∧ (s.record 23).phase ≠ .off ∧
      (s.dpe 23).ready = true ∧ (s.dpe 23).port = .idle ∧ (s.dpe 23).inFlight = none ∧ (busy.dpe 23).port ≠ .idle ∧
      (h.record 23).state = .held ∧ (h.record 23).phase = .off ∧ (h.record 23).run = some (context 2 4 .off) :=
  ⟨invariants_of (by decide +kernel), clears_of (by decide +kernel), by decide +kernel⟩

theorem witness_RetestSpinsUpAgain :
    let s (p : Placement) := put 23 (graded p) planned
    (∀ z ∈ [s .pending, s (.lot 7)], z.Clear .a) ∧ small 23 = (23 : SlotId).val ∧ ((s .pending).record 23).state ≠ .disabled ∧
      8 ≤ small 8 ∧ small 7 = (7 : PlanId).val ∧ (s .pending).plans[(7 : PlanId)].entries = [] ∧ small 2 = (2 : PlanId).val ∧
      (s .pending).plans[(2 : PlanId)].entries ≠ [] ∧ ((s (.lot 7)).record 23).inLot = true ∧
      ((s .pending).record 23).inLot = false ∧ ((put 0 (powered .ready) planned).record 0).state ≠ .done :=
  ⟨clears_of (by decide +kernel), by decide +kernel⟩

theorem witness_TrayClaimsAreGrantedInOrder :
    let s (h : List Holder) (q : List TrayEntry) := { planned with trays := planned.trays.set 2 { holders := h, queue := q } }
    let tray (h : List Holder) (q : List TrayEntry) := (s h q).trays[(2 : TrayId)]
    ((tray [⟨23, .storm⟩] [⟨16, .quiet, 5⟩]).Sound 2 ∧ (tray [⟨16, .quiet⟩] [⟨23, .storm, 5⟩, ⟨17, .quiet, 6⟩]).Sound 2 ∧
        (tray [⟨16, .quiet⟩] [⟨17, .storm, 5⟩, ⟨23, .quiet, 6⟩]).Sound 2) ∧
      trayOf 23 = 2 ∧ trayOf 16 = 2 ∧ 23 ∈ (tray [⟨23, .storm⟩] []).slots ∧ 16 ∉ (tray [⟨23, .storm⟩] []).slots ∧
      (tray [⟨23, .quiet⟩] []).queue = [] ∧ (¬ ∃ h ∈ (tray [⟨23, .quiet⟩] []).holders, h.kind = .storm) ∧
      (¬ ∃ h ∈ (tray [⟨23, .storm⟩] []).holders, h.kind = .quiet) ∧ (∃ h ∈ (tray [⟨23, .storm⟩] []).holders, h.kind = .storm) ∧
      (tray [⟨23, .quiet⟩] [⟨17, .storm, 5⟩]).queue ≠ [] ∧ 16 ∉ (tray [⟨23, .quiet⟩] [⟨17, .storm, 5⟩]).slots ∧
      (∃ h ∈ (tray [⟨23, .storm⟩] [⟨16, .quiet, 5⟩]).holders, h.slot = 23) ∧
      23 ∈ (tray [⟨23, .storm⟩] [⟨16, .quiet, 5⟩]).slots ∧
      (∃ e ∈ (tray [⟨16, .quiet⟩] [⟨23, .storm, 5⟩, ⟨17, .quiet, 6⟩]).queue.head?, e.slot = 23) ∧
      (¬ ∃ e ∈ (tray [⟨16, .quiet⟩] [⟨17, .storm, 5⟩, ⟨23, .quiet, 6⟩]).queue.head?, e.slot = 23) ∧
      23 ∈ (tray [⟨16, .quiet⟩] [⟨17, .storm, 5⟩, ⟨23, .quiet, 6⟩]).slots :=
  ⟨⟨traySound_of (by decide +kernel), traySound_of (by decide +kernel), traySound_of (by decide +kernel)⟩, by decide +kernel⟩

/-! Chapters 7 and 8. -/

theorem witness_SetGradeTableReplacesTable :
    let busy := { twoGrading with engine := some ⟨9, 2, 2, 1, false, {}⟩ }
    base.Clear .a ∧ busy.Clear .a ∧ twoGrading.Clear .a ∧ busy.engine ≠ none ∧ twoGrading.engine = none ∧
      ¬ ([20, 20] : List Nat).Pairwise (fun a b => a < b) ∧ ([20, 21] : List Nat).Pairwise (fun a b => a < b) ∧
      twoGrading.gradingQueue ≠ [] ∧ base.gradingQueue = [] :=
  ⟨clear_of (by decide +kernel), clear_of (by decide +kernel), clear_of (by decide +kernel), by decide +kernel⟩

theorem witness_GradeIsComputed :
    let swept (t : TestRecord) := t.zones.toList.all Zone.swept
    swept {} = false ∧ swept record74 = true ∧
      ((record74.zones.toList.any fun z => decide (table74.hardLimit < z.hard)) || decide (table74.seekLimit < record74.seekErrors)) = false ∧
      (record74.zones.toList.any fun z => decide (({ table74 with hardLimit := 1 } : GradeTable).hardLimit < z.hard)) = true ∧
      (record74.zones.toList.any fun z => decide (table74.slowLimit < z.slow)) = true := by decide +kernel

theorem witness_GradingCompletionMakesVerdict :
    let e (d : Bool) : Grading := ⟨13, 6, 3, 107997, d, record74⟩
    let s (d : Bool) := { put 13 (seated .grading) base with grade := table74, engine := some (e d) }
    base.AttentionSafe ∧ (s false).AttentionSafe ∧ (s true).AttentionSafe ∧ base.engine = none ∧ (s false).engine = some (e false) ∧
      ((s false).record 13).state = .grading ∧ (e false).discard = false ∧ (s true).engine = some (e true) ∧ (e true).discard = true :=
  ⟨attentionSafe_of (by decide +kernel), attentionSafe_of (by decide +kernel), attentionSafe_of (by decide +kernel), by decide +kernel⟩

theorem witness_PlacementFillsLotOrQueue :
    let s (p : Placement) := put 23 (graded p) base
    let v : Verdict := { kind := .graded, bin := .s2, score := some 97, revision := some 3, plan := some 6, at_ := 5 }
    let o (n : Nat) := withLot .open_ ((List.range n).map fun k => (⟨k % 24, by omega⟩, .unpicked)) (s .none)
    let first (s : State) := s.opening.find? fun n => s.lots[n].state == .open_ && s.lots[n].bin == .s2
    (s .none).Clear .b ∧ (s .pending).Clear .b ∧ ((s .none).record 23).verdict = some v ∧ small 23 = (23 : SlotId).val ∧
      ((s .none).record 23).state ≠ .disabled ∧ first (s .none) = none ∧ first (o 2) = some 0 ∧
      (o 2).lots[(0 : LotId)].entries.length + 1 = (o 2).lots[(0 : LotId)].capacity ∧
      (o 1).lots[(0 : LotId)].entries.length + 1 ≠ (o 1).lots[(0 : LotId)].capacity ∧
      (((s .none).record 23).state = .done ∧ ((s .none).record 23).placement = .none) ∧ ((s .pending).record 23).placement ≠ .none :=
  ⟨clear_of (by decide +kernel), clear_of (by decide +kernel), by decide +kernel⟩

theorem witness_OpenLotTakesQueue :
    let taken := { carton with lots := Vector.replicate 8 { state := .closed, capacity := 1 } }
    carton.Clear .b ∧ taken.Clear .b ∧ 7 ≤ small 7 ∧ small 6 < 7 ∧
      ((List.finRange 8).find? fun n : LotId => taken.lots[n].state == .free) = none ∧ small 1 = Bin.s2.code ∧
      ((List.finRange 8).find? fun n : LotId => carton.lots[n].state == .free) = some 0 ∧
      (((carton.binQueues[Bin.s2.index]).takeWhile fun j => (carton.record j).verdict.isSome).take 2).length =
        max 1 (min 60 (2 : Word).toNat) :=
  ⟨clear_of (by decide +kernel), clear_of (by decide +kernel), by decide +kernel⟩

theorem witness_LotsAreClosedAndReleased :
    let s (st : LotState) (es : List (SlotId × EntryState)) := withLot st es base
    (s .open_ []).Clear .b ∧ 8 ≤ small 8 ∧ small 0 = (0 : LotId).val ∧ small 7 = (7 : LotId).val ∧
      (s .open_ []).lots[(7 : LotId)].state ≠ .open_ ∧ (s .open_ []).lots[(0 : LotId)].entries = [] ∧
      (∀ e ∈ (s .open_ [(3, .picked), (5, .lost)]).lots[(0 : LotId)].entries, e.state = .picked ∨ e.state = .lost) ∧
      (¬ ∀ e ∈ (s .open_ [(3, .picked), (5, .picking)]).lots[(0 : LotId)].entries, e.state = .picked ∨ e.state = .lost) ∧
      (s .complete [(3, .picked)]).lots[(0 : LotId)].state = .complete :=
  ⟨clear_of (by decide +kernel), by decide +kernel⟩

theorem witness_PicksAreNamedAndCancelled :
    let s := withLot .full [(3, .picked), (23, .unpicked)] (put 23 (graded (.lot 0)) base)
    let u (p : Placement) := withLot .full [(23, .picking)] (put 23 (inState .unloading (graded p)) base)
    let n := put 23 (seated .unloading) base
    (∀ z ∈ [s, u (.lot 0), u .none, n], z.Clear .b) ∧ 8 ≤ small 8 ∧ small 7 = (7 : LotId).val ∧ s.lots[(7 : LotId)].state = .free ∧
      small 0 = (0 : LotId).val ∧ s.lots[(0 : LotId)].state ≠ .free ∧ s.lots[(0 : LotId)].state ≠ .complete ∧
      (s.lots[(0 : LotId)].entries.find? fun e => e.state == .unpicked).map LotEntry.slot = some 23 ∧ (s.record 23).state = .done ∧
      (∀ e ∈ (u (.lot 0)).lots[(0 : LotId)].entries, e.state ≠ .unpicked) ∧ small 23 = (23 : SlotId).val ∧
      ((u (.lot 0)).record 23).state = .unloading ∧ ((u (.lot 0)).record 23).placement = .lot 0 ∧
      (∃ e ∈ (u (.lot 0)).lots[(0 : LotId)].entries, e.slot = 23 ∧ e.state = .picking) ∧
      (((u .none).record 23).placement = .none ∧ ((u .none).record 23).verdict.isSome = true) ∧ (n.record 23).state = .unloading ∧
      (n.record 23).placement = .none ∧ (n.record 23).verdict = none :=
  ⟨clears_of (by decide +kernel), by decide +kernel⟩

theorem witness_UnloadTakesDriveOut :
    let s (x : Slot) := put 23 x planned
    let g := { put 23 (seated .grading) base with engine := some ⟨23, 6, 1, 5, false, {}⟩ }
    (∀ z ∈ [g, s (graded .pending), s (running .running 0 .waitBand), s (seated .loaded)], z.Invariant) ∧
      (∀ z ∈ [g, s (graded (.lot 0)), s (graded .pending), s (running .running 0 .waitBand)], z.Clear .b) ∧
      (g.record 23).state = .grading ∧ (g.record 23).phase = .off ∧ (g.dpe 23).ready = false ∧ (∀ e ∈ g.gradingQueue, e.slot ≠ 23) ∧
      g.engine.map Grading.slot = some 23 ∧ small 23 = (23 : SlotId).val ∧ ((s (graded (.lot 0))).record 23).inLot = true ∧
      ((s (graded (.lot 0))).record 23).state = .done ∧ ((s (graded .pending)).record 23).inLot = false ∧
      ((s (graded .pending)).record 23).verdict.isSome = true ∧ ((s (running .running 0 .waitBand)).record 23).state = .running ∧
      (0 : Word).getLsbD 0 = false ∧ (1 : Word).getLsbD 0 = true ∧ ((s (running .running 0 .waitBand)).record 23).phase ≠ .off ∧
      ((s (running .running 0 .waitBand)).dpe 23).ready = true ∧ ((s (seated .loaded)).record 23).state = .loaded ∧
      ((s (seated .loaded)).record 23).phase = .off ∧ ((s (seated .loaded)).dpe 23).ready = false ∧
      (((s (purposed .abort (powered .poweringDown))).record 23).state =
        .poweringDown ∧ ((s (purposed .abort (powered .poweringDown))).record 23).purpose = some .abort) :=
  ⟨invariants_of (by decide +kernel), clears_of (by decide +kernel), by decide +kernel⟩

theorem witness_WithdrawLeavesQueueOrLot :
    let s (p : Placement) := put 23 (graded p) (put 5 (graded .pending) base)
    let l (st : LotState) := { withLot st [(3, .picked), (8, .unpicked), (23, .unpicked)] (s (.lot 0)) with
      binQueues := base.binQueues.set 1 [5] }
    let left (s : State) := s.lots[(0 : LotId)].entries.filter fun e => !(e.slot == 23 && e.state == .unpicked)
    (∀ z ∈ [s .none, s .pending, l .full], z.Clear .b) ∧ small 23 = (23 : SlotId).val ∧ ((s .none).record 23).state = .done ∧
      ((s .none).record 23).placement = .none ∧ ((s .pending).record 23).placement = .pending ∧
      ((s .pending).record 23).verdict.isSome = true ∧ ((l .full).record 23).placement = .lot 0 ∧
      (l .open_).lots[(0 : LotId)].state = .open_ ∧ (l .closed).lots[(0 : LotId)].state = .closed ∧
      (l .full).lots[(0 : LotId)].state = .full ∧ (left (l .full)).length < (l .full).lots[(0 : LotId)].capacity ∧
      (∀ j ∈ (l .full).binQueues[(l .full).lots[(0 : LotId)].bin.index], ((l .full).record j).verdict.isSome = true) :=
  ⟨clears_of (by decide +kernel), by decide +kernel⟩

end Sys2Proof.Tests
end

section
/-! What one millisecond of rack time does to each slot and leaves of the rest, for the step of an empty queue. -/

namespace Sys2Proof.Machine

variable (s : State) (i j : SlotId)

/-- One millisecond of credit (R79), saturating (R2, R74), for a slot that has a run context. -/
def Slot.credited (x : Slot) : Slot :=
  { x with record := { x.record with run := x.record.run.map fun c => { c with credit := min 4294967295 (c.credit + 1) } } }

/-- When a step `e` in RUNNING accrues credit, at its run context `c` (R79, R80, R83, R84). -/
def RunContext.AccruesAt (c : RunContext) : StepEntry → Prop
  | .soak .. => c.band ≠ .out
  | .sweep _ => c.phase = .waitOp
  | .seekstorm .. => c.phase = .waitOp ∧ c.band ≠ .out
  | .powerCycle _ => c.phase = .off
  | _ => False

/-! ## Which slots accrue -/

theorem State.accrues_iff :
    s.accrues i = true ↔ (s.record i).state = .running ∧ ∃ c ∈ (s.record i).run, ∃ e ∈ s.stepEntry i, c.AccruesAt e := by
  unfold State.accrues
  split
  next c e running run entry => cases e <;> simp [running, run, entry, RunContext.AccruesAt]
  next other => exact ⟨nofun, fun ⟨running, c, run, e, entry, _⟩ => (other c e running run entry).elim⟩

/-- Whether a slot accrues is a matter of the slot itself and of the plan store. -/
theorem State.accrues_congr {s t : State} {i : SlotId} (slot : t.slot i = s.slot i) (plans : t.plans = s.plans) :
    t.accrues i = s.accrues i := by
  simp only [State.accrues, State.stepEntry, State.record, slot, plans]

/-! ## The millisecond of one slot -/

theorem State.creditTick_changes_slots : ∃ v, s.creditTick i = { s with slots := v } := by
  unfold State.creditTick
  split
  · exact ⟨_, rfl⟩
  · exact ⟨s.slots, rfl⟩

theorem State.slot_creditTick_self : (s.creditTick i).slot i = if s.accrues i then (s.slot i).credited else s.slot i := by
  unfold State.creditTick
  split
  · rw [State.modRun, State.slot_modRecord, if_pos rfl]; rfl
  · rfl

theorem State.slot_creditTick_ne (h : i ≠ j) : (s.creditTick i).slot j = s.slot j := by
  unfold State.creditTick
  split
  · rw [State.modRun, State.slot_modRecord, if_neg h]
  · rfl

theorem State.accrues_creditTick_ne (h : i ≠ j) : (s.creditTick i).accrues j = s.accrues j := by
  obtain ⟨v, eq⟩ := s.creditTick_changes_slots i
  exact State.accrues_congr (s.slot_creditTick_ne i j h) (by rw [eq])

/-! ## The millisecond of a list of slots -/

theorem State.foldl_creditTick_changes_slots (l : List SlotId) : ∃ v, l.foldl State.creditTick s = { s with slots := v } := by
  induction l generalizing s with
  | nil => exact ⟨s.slots, rfl⟩
  | cons i l ih =>
    obtain ⟨v, eq⟩ := s.creditTick_changes_slots i
    rw [List.foldl_cons, eq]
    exact ih { s with slots := v }

/-- Each slot of the list gains its millisecond once, by what it was before any of them did. -/
theorem State.slot_foldl_creditTick {l : List SlotId} (once : l.Nodup) :
    (l.foldl State.creditTick s).slot j = if j ∈ l ∧ s.accrues j then (s.slot j).credited else s.slot j := by
  induction l generalizing s with
  | nil => simp
  | cons i l ih =>
    obtain ⟨fresh, once⟩ := List.nodup_cons.mp once
    rw [List.foldl_cons, ih _ once]
    by_cases h : i = j
    · subst h; simp [fresh, State.slot_creditTick_self]
    · simp [State.slot_creditTick_ne _ _ _ h, State.accrues_creditTick_ne _ _ _ h, Ne.symm h]

/-! ## The millisecond of the part -/

theorem State.tick_changes_now_slots : ∃ v, s.tick = { s with now := s.now + 1, slots := v } :=
  State.foldl_creditTick_changes_slots _ _

theorem State.slot_tick : s.tick.slot i = if s.accrues i then (s.slot i).credited else s.slot i := by
  have clock : { s with now := s.now + 1 }.accrues i = s.accrues i := State.accrues_congr rfl rfl
  rw [State.tick, State.slot_foldl_creditTick _ _ allSlots_nodup, clock]
  simp only [mem_allSlots, true_and]
  rfl

theorem step_eq_tick (empty : s.pending = []) : step s = .next s.tick := by
  unfold step; rw [empty]

/-- Settles O2: each slot is in the list of all slots once, and the millisecond of another slot leaves it and its accrual. -/
theorem emptyQueueCountsOneMillisecond : Obligations.EmptyQueueCountsOneMillisecond := by
  intro s empty
  obtain ⟨v, eq⟩ := s.tick_changes_now_slots
  refine ⟨s.tick, step_eq_tick s empty, ?_, s.slot_tick, s.accrues_iff⟩
  rw [eq]

end Sys2Proof.Machine
end
